-- ==== Sys2Proof/Word.lean ====
section
/-! DEFINITION. The words the part's lines and records are made of (11_frame_and_record_layouts.md). -/

namespace Sys2Proof

/-- A character of a frame or a byte of a record (R198, R204). -/
abbrev Byte := BitVec 8

/-- A check word (R131). -/
abbrev CheckWord := BitVec 16

/-- A vehicle identity (R77); 0 stands for no identity. -/
abbrev Identity := BitVec 64

end Sys2Proof
end

