-- ==== Sys2Proof/Syntax.lean ====
section
/-! DEFINITION. The commands of the WL460: one constructor for each row of spec/opcode_table.json. -/

namespace Sys2Proof

/-- The two vehicle slots (R67). -/
inductive SlotId where
  | slot0 | slot1
  deriving DecidableEq, Repr

/-- The two lane nodes (R87). -/
inductive Lane where
  | entry | exit
  deriving DecidableEq, Repr

/-- The two serial ports (R184). -/
inductive Port where
  | field | gatehouse
  deriving DecidableEq, Repr

/-- The operating mode, and the position of the metrology switch (R147). -/
inductive Mode where
  | normal | cal
  deriving DecidableEq, Repr

/-- What a store record holds after a write that did not end well (R132): the old contents whole, the new
contents whole, or contents that fail their check, given by the check word found beside them. -/
inductive Left where
  | old
  | new
  | corrupt (word : CheckWord)
  deriving DecidableEq, Repr

/-- The read-back of a record just laid down (R132). Where it differs, `left` is what the record holds; it counts
only at the second attempt, which is the one that leaves the record standing. -/
inductive ReadBack where
  | equal
  | differs (left : Left)
  deriving DecidableEq, Repr

/-- The commands. A row that executes a request carries the request's tag and arguments (R201); it is executed when
that request stands at the front of the request queue (R186). -/
inductive Instr where
  -- supply
  | powerUp (switch : Mode)
  | powerLoss (left : Left)
  -- frames taken
  | framePause (port : Port) (chars : List Byte)
  | badFrame (port : Port) (chars : List Byte)
  | cellFrame (node scan : Byte) (raw : BitVec 24) (temperature excitation : BitVec 16) (status : Byte)
  -- the scan
  | scanTimerExpiry
  | sendScan
  | sendSignal
  -- deck timers
  | zeroSettleExpiry (d : Nat)
  | zeroIntervalExpiry (d : Nat)
  | reportDelayExpiry (d : Nat)
  | maximumIntervalExpiry (d : Nat)
  -- axles, slots and lanes
  | axleFrame (boundary : Byte) (tA tB : BitVec 32) (status : Byte)
  | quietTimerExpiry (slot : SlotId)
  | identFrame (lane : Lane) (identity : Identity)
  | waitingIdentityExpiry
  | laneKeyCancel (lane : Lane)
  | laneKeyPrint (lane : Lane)
  -- requests: arrival
  | requestFrame (tag kind : Byte) (args : List Byte)
  -- requests: execution
  | unknownRequest (tag kind : Byte) (args : List Byte)
  | readEntrySettings (tag : Byte) (index : BitVec 16)
  | writeEntrySettings (tag : Byte) (index : BitVec 16) (contents : List Byte)
  | readEntryCells (tag : Byte) (index : BitVec 16)
  | readEntryDecks (tag : Byte) (index : BitVec 16)
  | readEntryMetro (tag : Byte) (index : BitVec 16)
  | writeEntryMetro (tag : Byte) (index : BitVec 16) (contents : List Byte)
  | readEntryClasses (tag : Byte) (index : BitVec 16)
  | writeEntryClasses (tag : Byte) (index : BitVec 16) (contents : List Byte)
  | readEntryPermits (tag : Byte) (index : BitVec 16)
  | writeEntryPermits (tag : Byte) (index : BitVec 16) (contents : List Byte)
  | readEntryBarred (tag : Byte) (index : BitVec 16)
  | writeEntryBarred (tag : Byte) (index : BitVec 16) (contents : List Byte)
  | readEntrySlots (tag : Byte) (index : BitVec 16)
  | readEntryPending (tag : Byte) (index : BitVec 16)
  | readEntryAuditlog (tag : Byte) (index : BitVec 16)
  | readEntryAuditrun (tag : Byte) (index : BitVec 16)
  | readEntryIdentity (tag : Byte) (index : BitVec 16)
  | setTime (tag : Byte) (t : BitVec 32)
  | timeTick
  | zero (tag d : Byte)
  | reIdent (tag s : Byte) (identity : Identity)
  | abortSlot (tag s : Byte)
  | clearStrays (tag : Byte)
  | finalize (tag s kind : Byte)
  | ackTickets (tag : Byte) (serial : BitVec 32)
  | resendTickets (tag : Byte) (serial : BitVec 32)
  | ackFlags (tag cell : Byte)
  | auditOpen (tag : Byte) (decks : List Byte)
  | auditPoint (tag d : Byte) (nominal : BitVec 32) (position : Byte)
  | pointTimerExpiry
  | auditClose (tag : Byte)
  | auditCancel (tag : Byte)
  | zeroCells (tag d : Byte)
  | spanFromPoint (tag p : Byte)
  | commit (tag : Byte)
  | logErase (tag : Byte)
  | serialRestore (tag : Byte) (v : BitVec 32)
  | reset (tag scope : Byte)
  -- frames sent on the gatehouse line
  | sendResponse
  | sendTicket
  | sendNotice
  | sendWeight
  -- the store, the sweeps and the switch
  | recordWriteDone (readBack : ReadBack)
  | pendingSweep
  | verificationLapsed
  | switchMoved (position : Mode)
  -- tables that refuse
  | writeEntryReadOnlyTable (tag table : Byte) (index : BitVec 16) (contents : List Byte)
  | unknownTableName (tag kind table : Byte) (index : BitVec 16) (contents : List Byte)
  deriving DecidableEq, Repr

end Sys2Proof
end

