-- ==== Sys2Proof/Decode.lean ====
section
/-! DEFINITION. The command a word of the table's bits spells: none, since no row of spec/opcode_table.json has bits. -/

namespace Sys2Proof

/-- The command a word spells by the table's bits. The table gives no row any, so every word spells none. -/
def decodeTableWord (_nbits _w : Nat) : Option Instr := none

end Sys2Proof
end

