-- ==== Sys2Proof/Config.lean ====
section
/-! DEFINITION. Values of the part that the spec does not give: constants with no body, so that no proof can see
what they are (notes/assumptions 10, 11 and 12). -/

namespace Sys2Proof.Config

/-- Vendor code of the identity table: fixed in the part (R191), its value not given. -/
opaque vendorCode : BitVec 32
/-- Part code of the identity table (R191), its value not given. -/
opaque partCode : BitVec 32
/-- Revision of the identity table (R191), its value not given. -/
opaque revision : BitVec 32
/-- Part serial number of the identity table, 32-bit (R191), its value not given. -/
opaque partSerial : BitVec 32

/-- Whether a remaining time of that many milliseconds, not a whole number of seconds, is given in seconds rounded up
(R67, R168 name the unit and no rounding). -/
opaque roundsUp : Nat → Bool

/-- The check code a LOG-ERASE or SERIAL-RESTORE writes with the new counter where the counter record held none that
passes its check (R135 says "present check code"). -/
opaque absentCheckCode : CheckWord

end Sys2Proof.Config
end

