-- ==== Sys2Proof/Machine/State.lean ====
section
/-! DEFINITION. The state of the WL460 as plain data, block by block (00_scope.md 3.2), and the state after reset.
What the spec names twice is stored once; the other view is computed in Machine/Ops.lean (notes/assumptions/28). -/

namespace Sys2Proof.Machine

/-- Why the machine stops: never. Every outcome the spec gives a command is a next state, so no constructor is needed
(safe: nothing is cut off). -/
inductive Fault where
  deriving DecidableEq, Repr

/-- Why a command has no meaning. -/
inductive Refusal where
  /-- Raised by an arm of `exec` whose row has no meaning yet; no arm uses it. Safe: a refused step proves nothing. -/
  | notModelled (mnemonic : String)
  deriving DecidableEq, Repr

/-- A timer: the milliseconds left while it runs, or none while it is stopped. -/
abbrev Timer := Option Nat

/-! ### Cells and the scan -/

/-- Status of a CELL reply (R200). -/
inductive ReplyStatus where
  | ok | overrange | nodeFault
  deriving DecidableEq, Repr

/-- Reason of a cell's FAULT (R8). -/
inductive CellFault where
  | overrange | node | timeout
  deriving DecidableEq, Repr

/-- A cell's entry in the reply record of the open scan (R1). -/
inductive ReplyEntry where
  | notReplied | ok | faulted
  deriving DecidableEq, Repr

/-- A cell's constants in a metrological set (R7, R149). -/
structure CellConst where
  node : Nat
  deck : Nat
  zero : Int
  span : Nat
  breaks : List (Nat × Int)
  corner : Nat
  deriving DecidableEq, Repr

/-- The last accepted reply of a cell (R8). -/
structure Reply where
  raw : Int
  temperature : Int
  excitation : Nat
  status : ReplyStatus
  deriving DecidableEq, Repr

/-- A record of the cell table (R7, R8), with its reply-record entry (R1) and its monitors' last values (R18, R19).
The twelve flags stand in the order of settings 23 to 34. -/
structure Cell where
  const : CellConst
  entry : ReplyEntry
  last : Option Reply
  mass : Option Int
  window : List Int
  fault : Option CellFault
  clearing : Nat
  misses : Nat
  temperature : Option Int
  excitation : Option Int
  drift : Option Int
  flags : Vector Bool 12
  deriving DecidableEq, Repr

/-- The scan controller (R1) and its discard counts (R4). -/
structure ScanCtl where
  number : Byte
  isOpen : Bool
  timer : Timer
  unknownCell : Nat
  stale : Nat
  repeated : Nat
  deriving DecidableEq, Repr

/-! ### Decks -/

/-- Reason of a deck's FAULT (R25, R28). -/
inductive DeckFault where
  | cell | uncalibrated
  deriving DecidableEq, Repr

/-- R31. -/
inductive Motion where
  | moving | stable
  deriving DecidableEq, Repr

/-- R36 to R38. -/
inductive ZeroStatus where
  | fresh | stale
  deriving DecidableEq, Repr

/-- The current zero Z and the initial zero Z_init (R33). -/
structure Zero where
  z : Int
  init : Int
  deriving DecidableEq, Repr

/-- A deck record (R40), its timers (R35, R38, R44, R45) and its report mark (R43). `scanLost` says that the open scan
is abandoned for the deck by a commit (R42). -/
structure Deck where
  fault : Option DeckFault
  motion : Motion
  zeroStatus : ZeroStatus
  zero : Option Zero
  untracked : Bool
  w : Option Int
  filter : List Int
  motionWin : List Int
  settle : Timer
  checked : Bool
  interval : Timer
  delay : Timer
  maxInterval : Timer
  reportMark : Bool
  scanLost : Bool
  deriving DecidableEq, Repr

/-! ### Axles -/

/-- The record of a listed axle (R51). `name` is the model's own name for the axle. -/
structure AxleRec where
  name : Nat
  spacing : Option Nat
  duration : Nat
  suspect : Bool
  deriving DecidableEq, Repr

/-- Owner of an entry of the bridge line (R50). -/
inductive Owner where
  | listed (s : SlotId) (a : AxleRec)
  | overflow (s : SlotId)
  | stray
  deriving DecidableEq, Repr

/-- An entry of the bridge line (R50). -/
structure Entry where
  owner : Owner
  deck : Nat
  deriving DecidableEq, Repr

/-- Direction of a crossing (R48). -/
inductive Dir where
  | forward | backward
  deriving DecidableEq, Repr

/-- A last-crossing record (R59). -/
structure Crossing where
  tA : BitVec 32
  tB : BitVec 32
  dir : Dir
  duration : Nat
  suspect : Bool
  axle : Option (SlotId × Nat)
  deriving DecidableEq, Repr

/-- The axle tracker (R50, R59) and its counts (R47, R57). -/
structure AxleTracker where
  line : List Entry
  last : Vector (Option Crossing) 7
  unknownBoundary : Nat
  repeated : Nat
  suspect : Nat
  untracked : Vector Nat 6
  nextAxle : Nat
  deriving DecidableEq, Repr

/-- Group types (R62). A class pattern holds no `invalid` (R88). -/
inductive GroupType where
  | single | tandem | tri | quad | invalid
  deriving DecidableEq, Repr

/-! ### Checks -/

/-- Verdicts (R98 to R100). -/
inductive Verdict where
  | pass | tolerated | over | indeterminate
  deriving DecidableEq, Repr

/-- Reasons of an INDETERMINATE verdict (R90). -/
inductive CheckReason where
  | noClass | pattern | overflow | unclaimed | sharedDeck | noGross | moving
  deriving DecidableEq, Repr

/-- How the class was found (R90). -/
inductive ClassSource where
  | permit | pattern | none
  deriving DecidableEq, Repr

/-- An entry of a check's group list (R91). -/
structure CheckGroup where
  type : GroupType
  axles : Option (Nat × Nat)
  decks : Option (Nat × Nat)
  load : Option Int
  limit : Int
  ceiling : Int
  verdict : Verdict
  reason : Option CheckReason
  deriving DecidableEq, Repr

/-- The contents of a computed check (R90). -/
structure Check where
  classCode : Nat
  source : ClassSource
  pattern : List GroupType
  groups : List CheckGroup
  gross : Option Int
  grossLimit : Option Int
  grossCeiling : Option Int
  grossVerdict : Option Verdict
  overall : Verdict
  reasons : List CheckReason
  hold : Bool
  deriving DecidableEq, Repr

/-- The check result of a slot with its standing (R90). -/
inductive CheckResult where
  | none
  | current (c : Check)
  | frozen (c : Check)
  deriving DecidableEq, Repr

/-- An entry in use of the class table (R88). -/
structure ClassEntry where
  code : Nat
  pattern : List GroupType
  limits : List Int
  grossLimit : Int
  tolerance : Int
  hold : Bool
  deriving DecidableEq, Repr

/-! ### Slots -/

/-- Claimant of a deck (R65). -/
inductive Claim where
  | none
  | slot (s : SlotId)
  | audit
  deriving DecidableEq, Repr

/-- R67. -/
inductive SlotState where
  | free | moving | positioned | issuing | leaving
  deriving DecidableEq, Repr

/-- A slot context (R67) with its check result (R90). The run is a view of the deck claim table. -/
structure Slot where
  state : SlotState
  identity : Option Identity
  permit : Option Nat
  barred : Bool
  spanBreach : Bool
  intruded : Bool
  overHeld : Bool
  axleOverflow : Bool
  quiet : Bool
  quietTimer : Timer
  check : CheckResult
  deriving DecidableEq, Repr

/-- A permit table entry (R77); the stored tare and its time are present or absent together. -/
structure Permit where
  identity : Identity
  classCode : Nat
  tare : Option (Nat × Nat)
  valid : Bool
  deriving DecidableEq, Repr

/-- Lane aspects (R85, R86). -/
inductive Aspect where
  | enter | stop | hold | reposition | seeOffice | go
  deriving DecidableEq, Repr

/-- The slot controller (R65, R67, R77, R78, R81). -/
structure SlotCtl where
  claims : List Claim
  commitMark : Bool
  slot0 : Slot
  slot1 : Slot
  permits : Vector Permit 32
  bars : Vector (BitVec 32) 64
  waiting : Option Identity
  waitingTimer : Timer
  deriving DecidableEq, Repr

/-! ### Tickets -/

/-- Transaction kinds (R104); AUTO is resolved before it is recorded. -/
inductive TicketKind where
  | grossIn | tareOut | storedNet | tareRefresh | spot
  deriving DecidableEq, Repr

/-- Tare source of a WEIGH record (R117, R118). -/
inductive TareSource where
  | pass (serial : Nat)
  | stored (time : Nat)
  | none
  deriving DecidableEq, Repr

/-- The capture of an accepted finalization (R113), with the tare, net and gross of R118. `pendingRec` is the store
record of the pending entry a TARE-OUT closes. -/
structure Capture where
  kind : TicketKind
  slot : SlotId
  identity : Option Identity
  permit : Option Nat
  decks : List (Nat × Int)
  check : Check
  gross : Int
  tare : Option Int
  net : Option Int
  source : TareSource
  warn : Bool
  tolerated : Bool
  pendingRec : Option Nat
  deriving DecidableEq, Repr

/-- A pending-inbound entry as the store holds it (R119, R130). -/
structure Inbound where
  identity : Identity
  serial : Nat
  gross : Int
  time : Nat
  classCode : Nat
  deriving DecidableEq, Repr

/-- An entry of the ticket unit's working copy, with the store record that holds it (R119, R135). -/
structure PendingEntry where
  inbound : Inbound
  recNo : Nat
  deriving DecidableEq, Repr

/-! ### Audits -/

/-- R168. -/
inductive RunState where
  | closed | opened | waiting | closing
  deriving DecidableEq, Repr

/-- State of a test point (R171 to R173). -/
inductive PointState where
  | waiting | captured | unstable
  deriving DecidableEq, Repr

/-- Verdict of a test point (R174). -/
inductive PointVerdict where
  | pass | fail | unstable
  deriving DecidableEq, Repr

/-- A test point (R171, R172). Position 0 is WHOLE, 1 to 8 a cell position. -/
structure Point where
  deck : Nat
  nominal : Int
  position : Nat
  state : PointState
  indication : Option Int
  gross : Option Int
  error : Option Int
  mpe : Option Int
  verdict : Option PointVerdict
  deriving DecidableEq, Repr

/-- Three-valued verdicts of a deck and of its eccentricity (R175, R177). -/
inductive AuditVerdict where
  | pass | fail | none
  deriving DecidableEq, Repr

/-- Reasons of a deck's FAIL (R177). -/
inductive AuditReason where
  | point | noZeroPoint | tooFew | eccentricity
  deriving DecidableEq, Repr

/-- A deck's part of a close capture (R178). -/
structure DeckResult where
  deck : Nat
  verdict : AuditVerdict
  reasons : List AuditReason
  ecc : AuditVerdict
  traffic : Nat
  deriving DecidableEq, Repr

/-- The close capture (R178). -/
structure CloseCapture where
  mode : Mode
  decks : List DeckResult
  points : List Point
  deriving DecidableEq, Repr

/-- A deck's verification standing (R130, R182). -/
inductive Standing where
  | verified (expiry : Nat)
  | unverified
  | failed
  deriving DecidableEq, Repr

/-- The audit unit (R168, R182, R183). -/
structure AuditUnit where
  run : RunState
  decks : List Nat
  traffic : List Nat
  points : List Point
  timer : Timer
  standings : List Standing
  lapsed : List Bool
  sweep : Timer
  deriving DecidableEq, Repr

/-- A WEIGH record: the capture and what is fixed when the job begins (R115, R117). -/
structure WeighRec where
  serial : Nat
  time : Nat
  counter : Nat
  code : CheckWord
  capture : Capture
  deriving DecidableEq, Repr

/-- An AUDIT record (R178); `expiry` is the one every PASS deck took. -/
structure AuditRec where
  serial : Nat
  time : Nat
  counter : Nat
  code : CheckWord
  expiry : Nat
  capture : CloseCapture
  deriving DecidableEq, Repr

/-- The records of the ticket ring (R122). -/
inductive RingRec where
  | weigh (r : WeighRec)
  | audit (r : AuditRec)
  | void (first last : Nat)
  deriving DecidableEq, Repr

/-- A place of the ring in use: a record and its sent mark (R123). -/
structure RingSlot where
  record : RingRec
  sent : Bool
  deriving DecidableEq, Repr

/-- The last issued and the acknowledged serial (R122). -/
structure Serials where
  issued : Nat
  acked : Nat
  deriving DecidableEq, Repr

/-- The ticket unit (R119, R122, R125). `serials` is none while the part is in SERIAL_LOST (R143). -/
structure TicketUnit where
  ring : List RingSlot
  serials : Option Serials
  heldAck : Option Nat
  pending : List PendingEntry
  sweep : Timer
  deriving DecidableEq, Repr

/-! ### Calibration and the store -/

/-- A metrological set (R149). `cells` holds the 32 cell positions; `maxes` holds N values. -/
structure MetroSet where
  n : Nat
  e : Nat
  interval : Nat
  maxes : List Nat
  cells : Vector (Option CellConst) 32
  deriving DecidableEq, Repr

/-- A change item of a log entry (R163, R204). -/
structure ChangeItem where
  index : Nat
  field : Nat
  old : Option Int
  new : Option Int
  deriving DecidableEq, Repr

/-- Kind of a calibration event (R163). -/
inductive LogKind where
  | commit | erase | restore
  deriving DecidableEq, Repr

/-- An audit log entry as the store holds it (R130, R163). -/
structure LogEntry where
  counter : Nat
  kind : LogKind
  time : Option Nat
  items : List ChangeItem
  total : Nat
  deriving DecidableEq, Repr

/-- An entry of the working copy of the audit log (R163). -/
structure LogItem where
  entry : LogEntry
  read : Bool
  deriving DecidableEq, Repr

/-- The calibration unit (R147, R150, R162, R163). -/
structure CalUnit where
  mode : Mode
  switch : Mode
  working : MetroSet
  active : Option MetroSet
  counter : Nat
  log : List LogItem
  deriving DecidableEq, Repr

/-- A store record: its contents and the check word stored with them (R131). -/
structure Rec (α : Type) where
  contents : α
  word : CheckWord
  deriving DecidableEq, Repr

/-- Contents of a pending record (R130). -/
inductive PendingRec where
  | empty
  | entry (i : Inbound)
  | removed (i : Inbound) (serial : Nat)
  deriving DecidableEq, Repr

/-- Contents of the counter record (R130). -/
structure CounterRec where
  counter : Nat
  code : CheckWord
  deriving DecidableEq, Repr

/-- The nonvolatile records (R130). -/
structure Store where
  set : Rec MetroSet
  counter : Rec CounterRec
  log : Vector (Rec (Option LogEntry)) 32
  verif : Vector (Rec Standing) 6
  serial : Rec Nat
  ack : Rec Nat
  pending : Vector (Rec PendingRec) 48
  deriving DecidableEq, Repr

/-- A store job, by what it is to do (R133, R135). Its originator follows from it. -/
inductive Job where
  | ticket (c : Capture)
  | close (c : CloseCapture)
  | commit
  | logErase
  | restore (v : Nat)
  | ack (v : Nat)
  | housekeeping (recs : List Nat)
  deriving DecidableEq, Repr

/-- Originators of store jobs (R133). -/
inductive Origin where
  | slot (s : SlotId)
  | aud | cal | ack | housekeeping
  deriving DecidableEq, Repr

/-- One record write (R135). -/
inductive Write where
  | set (m : MetroSet)
  | counter (c : CounterRec)
  | log (slot : Nat) (e : LogEntry)
  | verif (deck : Nat) (v : Standing)
  | serial (n : Nat)
  | ack (n : Nat)
  | pending (recNo : Nat) (p : PendingRec)
  deriving DecidableEq, Repr

/-- The job being written, with the values fixed at its beginning (R134): `time` as it stood, UNSET as none;
`counter` and `code` present at issue; `entry` and `logSlot` of a CAL job; `recNo` of a GROSS-IN; `expiry` of an
AUDIT-CLOSE. `writes` are those not yet written, `written` counts those that are, and `again` says that the one in hand
is being written a second time (R132). -/
structure Running where
  serial : Nat
  time : Option Nat
  counter : Nat
  code : CheckWord
  recNo : Option Nat
  expiry : Nat
  entry : Option LogEntry
  logSlot : Nat
  writes : List Write
  written : Nat
  again : Bool
  deriving DecidableEq, Repr

/-- The metrology store (R130, R133, R138). `running` belongs to the front job. -/
structure MetroStore where
  store : Store
  jobs : List Job
  running : Option Running
  storeFault : Bool
  newestSlot : Option Nat
  deriving DecidableEq, Repr

/-! ### The link -/

/-- Cause of an INTRUSION (R58). -/
inductive IntrusionCause where
  | claimed | noSlot | refused
  deriving DecidableEq, Repr

/-- Cause of a SPAN_BREACH (R72). -/
inductive BreachCause where
  | slot0 | slot1 | audit | untracked | strays | notAdjacent
  deriving DecidableEq, Repr

/-- Record kinds a STORE_FAULT names (R130, R137). -/
inductive RecKind where
  | set | counter | log | verification | serial | acknowledged | pending
  deriving DecidableEq, Repr

/-- Cell monitors (R18, R19). -/
inductive Monitor where
  | temperature | excitation | drift
  deriving DecidableEq, Repr

/-- Monitor thresholds (R20). -/
inductive Threshold where
  | highAlarm | highWarning | lowWarning | lowAlarm
  deriving DecidableEq, Repr

/-- The notices with the contents their rules name (R192). The number of a STORE_FAULT is present for the record kinds
that have several (R137). -/
inductive Notice where
  | powerUp (mode switch : Mode) (counter : Nat) (code : Option CheckWord) (serialLost : Bool)
  | cellFlag (index node : Nat) (kind : Monitor) (threshold : Threshold) (value : Int)
  | cellFault (index node : Nat) (state : Option CellFault)
  | zeroStale (deck : Nat)
  | zeroRange (deck : Nat) (w init : Int)
  | residue (deck : Nat) (gross : Int)
  | spanBreach (s : SlotId) (deck : Nat) (cause : BreachCause)
  | intrusion (deck : Nat) (cause : IntrusionCause)
  | intrusionMove (deck : Nat) (claimant : Claim)
  | duplicateId (s : SlotId) (identity : Identity)
  | barred (s : SlotId) (identity : Identity) (flag : Nat)
  | ringLow (count : Nat)
  | storeFault (origin : Origin) (kind : RecKind) (number : Option Nat) (written : Nat)
  | commitDone (counter : Nat) (code : CheckWord) (decks : List Nat)
  | eraseDone (counter : Nat)
  | restoreDone (counter : Nat) (v : Nat)
  | switchMoved (position mode : Mode)
  | pendingExpired (i : Inbound)
  | pendingDropped (recNo : Nat) (identity : Option Identity) (serial : Option Nat)
  | verificationLapsed (deck expiry : Nat)
  | ackRecordLost (serial : Nat)
  deriving DecidableEq, Repr

/-- A notice as queued: with the time of its raising (R192). -/
structure Stamped where
  time : Option Nat
  notice : Notice
  deriving DecidableEq, Repr

/-- A queued request: tag, kind and arguments as they came (R186, R201). -/
structure Request where
  tag : Byte
  kind : Byte
  args : List Byte
  deriving DecidableEq, Repr

/-- The answer statuses, in the order of R187. -/
inductive Status where
  | ok | okClamped | accepted | queueFull | unknownRequest | badIndex | badValue | range | wrongMode | notIdle
  | notReady | busy | duplicate | notFound | full | logFull | nothingToCommit | storeFault | serialLost | zeroRange
  deriving DecidableEq, Repr

/-- An answer: tag, kind as received, status and the answer's body as sent (R187, R201). -/
structure Answer where
  tag : Byte
  kind : Byte
  status : Status
  body : List Byte
  deriving DecidableEq, Repr

/-- What each port's receiving side holds (R184): the characters of a part-assembled frame, and three counts. -/
structure Receiver where
  rx : List Byte
  badLength : Nat
  badCheck : Nat
  unknownKind : Nat
  deriving DecidableEq, Repr

/-- The field port (R184, R185, R87). -/
structure FieldPort where
  inward : Receiver
  scanWaiting : Option Byte
  entryMark : Bool
  exitMark : Bool
  entrySent : Option Aspect
  exitSent : Option Aspect
  lineOut : List Byte
  deriving DecidableEq, Repr

/-- The gatehouse port (R184, R186, R190, R192, R193, R194). -/
structure GatePort where
  inward : Receiver
  requests : List Request
  responses : List Answer
  notices : List Stamped
  overflow : Bool
  unanswered : Nat
  dropped : Nat
  fairness : Nat
  lastReported : Nat
  time : Option Nat
  phase : Nat
  lineOut : List Byte
  deriving DecidableEq, Repr

/-- The whole machine. `pending` is the queue of commands that wait; `powered` says that the supply is good and the
power-up load has ended (R140, R186). -/
structure State where
  pending : List Instr
  powered : Bool
  fpt : FieldPort
  scn : ScanCtl
  cells : List Cell
  decks : List Deck
  axt : AxleTracker
  slc : SlotCtl
  classes : Vector (Option ClassEntry) 24
  tku : TicketUnit
  aud : AuditUnit
  cal : CalUnit
  mst : MetroStore
  gpt : GatePort
  settings : Vector Int 47
  deriving DecidableEq, Repr

/-- The blank set of R149. -/
def blankSet : MetroSet :=
  { n := 1, e := 1000, interval := 365, maxes := [1000000], cells := Vector.replicate 32 none }

/-- The defaults of R189 and R20. -/
def defaultSettings : Vector Int 47 :=
  #v[20, 3, 4, 8, 2, 2, 30, 3, 2000, 500, 500, 500, 500, 500, 500, 500, 250, 2, 60, 72, 30, 8, 120,
     700, 600, -250, -350, 10600, 10300, 9700, 9400, 50000, 20000, -20000, -50000,
     0, 0, 0, 0, 0, 0, 0, 0, 0, 0, 0, 0]

/-- The store of a new part (R130). The check words of the good records are those R203 forms over their layouts of
R204 (Tests/Slice0.lean shows that they pass); the word 0 of the set record is not the one R203 forms over the blank
set. The check code the counter record holds beside its counter 0 is 0 (notes/assumptions/1). -/
def factoryStore : Store :=
  { set := { contents := blankSet, word := 0 }
    counter := { contents := { counter := 0, code := 0 }, word := 0x0E10#16 }
    log := Vector.replicate 32 { contents := none, word := 0xA96A#16 }
    verif := Vector.replicate 6 { contents := .unverified, word := 0xBB5D#16 }
    serial := { contents := 0, word := 0x84C0#16 }
    ack := { contents := 0, word := 0x84C0#16 }
    pending := Vector.replicate 48 { contents := .empty, word := 0x304E#16 } }

/-- A receiver that waits for a start marker, its counts 0 (R184). -/
def freshReceiver : Receiver := { rx := [], badLength := 0, badCheck := 0, unknownKind := 0 }

/-- The power-up column of R67 for one slot, its check NONE (R90). -/
def freeSlot : Slot :=
  { state := .free, identity := none, permit := none, barred := false, spanBreach := false, intruded := false,
    overHeld := false, axleOverflow := false, quiet := false, quietTimer := none, check := .none }

/-- The power-up column of R40 for a deck that R25 leaves calibrated or not; its report is due (R41). -/
def freshDeck (fault : Option DeckFault) : Deck :=
  { fault := fault, motion := .moving, zeroStatus := .stale, zero := none, untracked := false, w := none,
    filter := [], motionWin := [], settle := none, checked := false, interval := none, delay := none,
    maxInterval := none, reportMark := true, scanLost := false }

/-- The machine right after reset: a new part (R130) just after power-up with the switch at NORMAL
(notes/assumptions/1). It has no active set, so it is deck 0 alone, in FAULT with reason UNCALIBRATED (R25). -/
def State.reset : State :=
  { pending := []
    powered := true
    fpt := { inward := freshReceiver, scanWaiting := none, entryMark := true, exitMark := true,
             entrySent := none, exitSent := none, lineOut := [] }
    scn := { number := 0, isOpen := false, timer := some 20, unknownCell := 0, stale := 0, repeated := 0 }
    cells := []
    decks := [freshDeck (some .uncalibrated)]
    axt := { line := [], last := Vector.replicate 7 none, unknownBoundary := 0, repeated := 0, suspect := 0,
             untracked := Vector.replicate 6 0, nextAxle := 0 }
    slc := { claims := [.none], commitMark := false, slot0 := freeSlot, slot1 := freeSlot,
             permits := Vector.replicate 32 { identity := 0, classCode := 0, tare := none, valid := false },
             bars := Vector.replicate 64 0, waiting := none, waitingTimer := none }
    classes := Vector.replicate 24 none
    tku := { ring := [], serials := some { issued := 0, acked := 0 }, heldAck := none, pending := [], sweep := none }
    aud := { run := .closed, decks := [], traffic := [], points := [], timer := none, standings := [.unverified],
             lapsed := [false], sweep := none }
    cal := { mode := .normal, switch := .normal, working := blankSet, active := none, counter := 0, log := [] }
    mst := { store := factoryStore, jobs := [], running := none, storeFault := false, newestSlot := none }
    gpt := { inward := freshReceiver, requests := [], responses := [],
             notices := [{ time := none, notice := .powerUp .normal .normal 0 none false }],
             overflow := false, unanswered := 0, dropped := 0, fairness := 0, lastReported := 0,
             time := none, phase := 0, lineOut := [] }
    settings := defaultSettings }

end Sys2Proof.Machine
end

