-- ==== Sys2Proof/Machine/Arith.lean ====
section
/-! DEFINITION. Rounding, saturation, byte order and the check word. -/

namespace Sys2Proof.Machine

/-- "Round" of 00_scope.md 5: n/d to the nearest whole value, ties away from zero. -/
def roundDiv (n : Int) (d : Int) : Int :=
  if n < 0 then -((2 * -n + d) / (2 * d)) else (2 * n + d) / (2 * d)

/-- The greatest mass (00_scope.md 5). -/
def maxMass : Int := 2147483647

/-- Saturation at ±2,147,483,647 g. -/
def saturate (x : Int) : Int := max (-maxMass) (min maxMass x)

/-- round(x / u) × u, u being a division or a tenth of one (R34, R46, R172). -/
def roundTo (u x : Int) : Int := roundDiv x u * u

/-- The group load and gross of R96 and R97: round(S / e) × e, a value beyond the range of a mass taken to the multiple
of e nearest to it within that range. -/
def roundMass (e s : Int) : Int :=
  let r := roundTo e s
  if maxMass < r then maxMass / e * e else if r < -maxMass then -(maxMass / e * e) else r

/-- A 16-bit count that stops at 65,535 (R4, R47, R57, R184, R186, R192). -/
def bump16 (n : Nat) : Nat := min (n + 1) 65535

/-- The greatest value of a 32-bit counter, serial or time. -/
def max32 : Nat := 4294967295

/-- `k` bytes of an unsigned integer, most significant first (R199). -/
def bytesOf : Nat → Nat → List Byte
  | 0, _ => []
  | k + 1, v => BitVec.ofNat 8 (v / 256 ^ k) :: bytesOf k v

/-- `k` bytes of a signed integer in two's complement, most significant first (R199). -/
def sbytesOf (k : Nat) (v : Int) : List Byte := bytesOf k (v % (256 ^ k : Nat)).toNat

/-- The unsigned integer whose bytes are given, most significant first. -/
def natOf (bs : List Byte) : Nat := bs.foldl (fun acc b => acc * 256 + b.toNat) 0

/-- The signed integer whose bytes are given, most significant first. -/
def intOf (bs : List Byte) : Int :=
  let v := natOf bs
  let m := 256 ^ bs.length
  if m ≤ 2 * v then (v : Int) - m else v

/-- Step 2 of R203: shift toward the most significant bit, and combine with 0x1021 where the bit dropped was 1. -/
def crcShift (r : CheckWord) : CheckWord := if r.msb then (r <<< 1) ^^^ 0x1021#16 else r <<< 1

/-- Steps 1 to 3 of R203 for one byte. -/
def crcByte (r : CheckWord) (b : Byte) : CheckWord :=
  let r0 := r ^^^ (b.zeroExtend 16 <<< 8)
  crcShift (crcShift (crcShift (crcShift (crcShift (crcShift (crcShift (crcShift r0)))))))

/-- The check word of R203. -/
def checkWord (bs : List Byte) : CheckWord := bs.foldl crcByte 0xFFFF#16

/-- The two bytes of a check word, most significant first (R203). -/
def wordBytes (w : CheckWord) : List Byte := bytesOf 2 w.toNat

/-- A marks byte (R199): the first mark at bit 0. -/
def marksByte (ms : List Bool) : Byte :=
  BitVec.ofNat 8 ((ms.zipIdx.map fun p => if p.1 then 2 ^ p.2 else 0).foldl (· + ·) 0)

/-- Seconds of a remaining time given in milliseconds. The spec names the unit and no rounding, so a part second is
rounded as `Config.roundsUp` says (notes/assumptions/10). -/
def remainingSeconds (ms : Nat) : Nat :=
  ms / 1000 + (if ms % 1000 = 0 then 0 else if Config.roundsUp ms then 1 else 0)

end Sys2Proof.Machine
end

