-- ==== Sys2Proof/Machine/Codes.lean ====
section
/-! DEFINITION. The codes of named values (R199: a value's position in the list that defines it) and the names of
reasons as answers carry them. -/

namespace Sys2Proof.Machine

def laneCode : Lane → Byte | .entry => 0 | .exit => 1
def modeCode : Mode → Byte | .normal => 0 | .cal => 1
def slotCode : SlotId → Byte | .slot0 => 0 | .slot1 => 1
def replyStatusCode : ReplyStatus → Byte | .ok => 0 | .overrange => 1 | .nodeFault => 2
def cellFaultCode : CellFault → Byte | .overrange => 0 | .node => 1 | .timeout => 2
def deckFaultCode : DeckFault → Byte | .cell => 0 | .uncalibrated => 1
def motionCode : Motion → Byte | .moving => 0 | .stable => 1
def zeroStatusCode : ZeroStatus → Byte | .fresh => 0 | .stale => 1
def claimCode : Claim → Byte | .none => 0 | .slot .slot0 => 1 | .slot .slot1 => 2 | .audit => 3
def standingCode : Standing → Byte | .verified _ => 0 | .unverified => 1 | .failed => 2
def groupTypeCode : GroupType → Byte | .single => 0 | .tandem => 1 | .tri => 2 | .quad => 3 | .invalid => 4
def verdictCode : Verdict → Byte | .pass => 0 | .tolerated => 1 | .over => 2 | .indeterminate => 3
def sourceCode : ClassSource → Byte | .permit => 0 | .pattern => 1 | .none => 2
def slotStateCode : SlotState → Byte | .free => 0 | .moving => 1 | .positioned => 2 | .issuing => 3 | .leaving => 4
def aspectCode : Aspect → Byte
  | .enter => 0 | .stop => 1 | .hold => 2 | .reposition => 3 | .seeOffice => 4 | .go => 5
def kindCode : TicketKind → Byte | .grossIn => 0 | .tareOut => 1 | .storedNet => 2 | .tareRefresh => 3 | .spot => 4
def runStateCode : RunState → Byte | .closed => 0 | .opened => 1 | .waiting => 2 | .closing => 3
/-- The states of a test point, in the order R171 to R173 name them (notes/assumptions/47). -/
def pointStateCode : PointState → Byte | .waiting => 0 | .captured => 1 | .unstable => 2
def pointVerdictCode : PointVerdict → Byte | .pass => 0 | .fail => 1 | .unstable => 2
def auditVerdictCode : AuditVerdict → Byte | .pass => 0 | .fail => 1 | .none => 2
def logKindCode : LogKind → Byte | .commit => 0 | .erase => 1 | .restore => 2
def monitorCode : Monitor → Byte | .temperature => 0 | .excitation => 1 | .drift => 2
def thresholdCode : Threshold → Byte | .highAlarm => 0 | .highWarning => 1 | .lowWarning => 2 | .lowAlarm => 3
def intrusionCode : IntrusionCause → Byte | .claimed => 0 | .noSlot => 1 | .refused => 2
def breachCode : BreachCause → Byte
  | .slot0 => 0 | .slot1 => 1 | .audit => 2 | .untracked => 3 | .strays => 4 | .notAdjacent => 5
def originCode : Origin → Byte
  | .slot .slot0 => 0 | .slot .slot1 => 1 | .aud => 2 | .cal => 3 | .ack => 4 | .housekeeping => 5
def recKindCode : RecKind → Byte
  | .set => 0 | .counter => 1 | .log => 2 | .verification => 3 | .serial => 4 | .acknowledged => 5 | .pending => 6

/-- Status codes of R201: 0 for OK to 19 for ZERO_RANGE, in the order of R187. -/
def statusCode : Status → Byte
  | .ok => 0 | .okClamped => 1 | .accepted => 2 | .queueFull => 3 | .unknownRequest => 4 | .badIndex => 5
  | .badValue => 6 | .range => 7 | .wrongMode => 8 | .notIdle => 9 | .notReady => 10 | .busy => 11
  | .duplicate => 12 | .notFound => 13 | .full => 14 | .logFull => 15 | .nothingToCommit => 16
  | .storeFault => 17 | .serialLost => 18 | .zeroRange => 19

/-- Notice codes of R201: 0 for POWER_UP to 17 for ACK_RECORD_LOST, in the order of R192. -/
def noticeCode : Notice → Byte
  | .powerUp .. => 0 | .cellFlag .. => 1 | .cellFault .. => 2 | .zeroStale .. => 3 | .zeroRange .. => 4
  | .residue .. => 5 | .spanBreach .. => 6 | .intrusion .. => 7 | .intrusionMove .. => 7 | .duplicateId .. => 8
  | .barred .. => 9 | .ringLow .. => 10 | .storeFault .. => 11 | .commitDone .. => 12 | .eraseDone .. => 12
  | .restoreDone .. => 12 | .switchMoved .. => 13 | .pendingExpired .. => 14 | .pendingDropped .. => 15
  | .verificationLapsed .. => 16 | .ackRecordLost .. => 17

/-- The code of an absent named value (R199). -/
def absentCode : Byte := 0xFF#8

/-- A named value that may be absent (R199). -/
def optCode {α : Type} (code : α → Byte) (v : Option α) : Byte := (v.map code).getD absentCode

/-- Every reason a NOT_READY answer can name (R37, R82, R105 to R111, R154 to R158, R164, R169, R171, R176). -/
inductive Reason where
  | fault | nozero | moving | axles | claimed | slotState | hasIdentity | timeUnset | barred | spanBreach | intruded
  | ringFull | deckMoving | deckCondition | zeroStale | deckSuspect | unverified | minGross | overCapacity
  | noIdentity | pendingExists | pendingFull | negativeNet | firstPass | noPermit | noTare | tareExpired
  | tareDivision | holdOnOver | noRun | layout | pointWaiting | window | noCells | notCaptured | position | nominal
  | ratio | cellDeck | deckCells | breakpoint | unread | strays | untracked | commit | noPoints
  deriving DecidableEq, Repr

/-- The reason's name as written in the manual (R199). -/
def Reason.name : Reason → String
  | .fault => "FAULT" | .nozero => "NOZERO" | .moving => "MOVING" | .axles => "AXLES" | .claimed => "CLAIMED"
  | .slotState => "SLOT_STATE" | .hasIdentity => "HAS_IDENTITY" | .timeUnset => "TIME_UNSET" | .barred => "BARRED"
  | .spanBreach => "SPAN_BREACH" | .intruded => "INTRUDED" | .ringFull => "RING_FULL"
  | .deckMoving => "DECK_MOVING" | .deckCondition => "DECK_CONDITION" | .zeroStale => "ZERO_STALE"
  | .deckSuspect => "DECK_SUSPECT" | .unverified => "UNVERIFIED" | .minGross => "MIN_GROSS"
  | .overCapacity => "OVER_CAPACITY" | .noIdentity => "NO_IDENTITY" | .pendingExists => "PENDING_EXISTS"
  | .pendingFull => "PENDING_FULL" | .negativeNet => "NEGATIVE_NET" | .firstPass => "FIRST_PASS"
  | .noPermit => "NO_PERMIT" | .noTare => "NO_TARE" | .tareExpired => "TARE_EXPIRED"
  | .tareDivision => "TARE_DIVISION" | .holdOnOver => "HOLD_ON_OVER" | .noRun => "NO_RUN" | .layout => "LAYOUT"
  | .pointWaiting => "POINT_WAITING" | .window => "WINDOW" | .noCells => "NO_CELLS"
  | .notCaptured => "NOT_CAPTURED" | .position => "POSITION" | .nominal => "NOMINAL" | .ratio => "RATIO"
  | .cellDeck => "CELL_DECK" | .deckCells => "DECK_CELLS" | .breakpoint => "BREAKPOINT" | .unread => "UNREAD"
  | .strays => "STRAYS" | .untracked => "UNTRACKED" | .commit => "COMMIT" | .noPoints => "NO_POINTS"

def CheckReason.name : CheckReason → String
  | .noClass => "NO_CLASS" | .pattern => "PATTERN" | .overflow => "OVERFLOW" | .unclaimed => "UNCLAIMED"
  | .sharedDeck => "SHARED_DECK" | .noGross => "NO_GROSS" | .moving => "MOVING"

def AuditReason.name : AuditReason → String
  | .point => "POINT" | .noZeroPoint => "NO_ZERO_POINT" | .tooFew => "TOO_FEW" | .eccentricity => "ECCENTRICITY"

/-- A name preceded by its number of characters (R199). -/
def nameBytes (n : String) : List Byte :=
  BitVec.ofNat 8 n.toList.length :: n.toList.map fun c => BitVec.ofNat 8 c.toNat

/-- A reason set in a RESPONSE (R199). -/
def nameSet (ns : List String) : List Byte := BitVec.ofNat 8 ns.length :: ns.flatMap nameBytes

/-- The reason set of a NOT_READY answer (R199, R201). -/
def reasonSet (rs : List Reason) : List Byte := nameSet (rs.map Reason.name)

/-- Keep the reasons that hold, in the order of the rule's table. -/
def reasonsWhere {α : Type} (table : List (α × Bool)) : List α := (table.filter (·.2)).map (·.1)

/-- All reasons of a check, in the order of R90. -/
def allCheckReasons : List CheckReason := [.noClass, .pattern, .overflow, .unclaimed, .sharedDeck, .noGross, .moving]

/-- All reasons of an audit FAIL, in the order of R177. -/
def allAuditReasons : List AuditReason := [.point, .noZeroPoint, .tooFew, .eccentricity]

/-- A list field (R199): a count byte, then the entries. -/
def listBytes {α : Type} (f : α → List Byte) (xs : List α) : List Byte :=
  BitVec.ofNat 8 xs.length :: xs.flatMap f

/-- A mass (R199): four bytes, signed. A value beyond four bytes is sent by its low 32 bits (notes/assumptions/42). -/
def massBytes (m : Int) : List Byte := sbytesOf 4 m

/-- A mass that may be absent (R199). -/
def optMass (m : Option Int) : List Byte := (m.map massBytes).getD [0x80#8, 0#8, 0#8, 0#8]

/-- An optional field with its presence byte (R199). -/
def optField (size : Nat) (v : Option (List Byte)) : List Byte :=
  match v with
  | some bs => 1#8 :: bs
  | none => 0#8 :: List.replicate size 0#8

/-- An optional unsigned 4-byte field. -/
def opt32 (v : Option Nat) : List Byte := optField 4 (v.map (bytesOf 4))

/-- An identity (R199): eight bytes, 0 for none. -/
def identityBytes (i : Option Identity) : List Byte := bytesOf 8 (i.map (·.toNat) |>.getD 0)

end Sys2Proof.Machine
end

