-- ==== Sys2Proof/Machine/Layouts.lean ====
section
/-! DEFINITION. Byte layouts of the store records (R204), of the ring records as sent (R202), of the envelope (R198)
and of notices and weight reports' fixed parts (R201). -/

namespace Sys2Proof.Machine

/-! ### Store records (R204) -/

/-- The four breakpoint places of a cell position, 0 beyond the count. -/
def breakpointBytes (bs : List (Nat × Int)) : List Byte :=
  (List.range 4).flatMap fun i =>
    match bs[i]? with
    | some (x, e) => bytesOf 4 x ++ sbytesOf 4 e
    | none => List.replicate 8 0#8

/-- A cell position of the set record; all 43 bytes 0 for an empty one. -/
def cellPositionBytes : Option CellConst → List Byte
  | none => List.replicate 43 0#8
  | some c =>
    bytesOf 1 c.node ++ bytesOf 1 c.deck ++ sbytesOf 3 c.zero ++ bytesOf 3 c.span ++ bytesOf 2 c.corner
      ++ bytesOf 1 c.breaks.length ++ breakpointBytes c.breaks

/-- The 1,407 bytes of the set record. -/
def setBytes (m : MetroSet) : List Byte :=
  bytesOf 1 m.n ++ bytesOf 4 m.e ++ bytesOf 2 m.interval
    ++ ((List.range 6).flatMap fun d => bytesOf 4 (m.maxes[d]?.getD 0))
    ++ m.cells.toList.flatMap cellPositionBytes

def counterBytes (c : CounterRec) : List Byte := bytesOf 4 c.counter ++ wordBytes c.code

/-- A change item (R204). -/
def itemBytes (i : ChangeItem) : List Byte :=
  bytesOf 1 i.index ++ bytesOf 1 i.field ++ optField 4 (i.old.map (sbytesOf 4)) ++ optField 4 (i.new.map (sbytesOf 4))

/-- A log entry record (R204). One that is EMPTY is laid out as an entry whose every field is 0 (notes/assumptions/53). -/
def logBytes : Option LogEntry → List Byte
  | none => List.replicate 14 0#8
  | some e => 1#8 :: (bytesOf 4 e.counter ++ [logKindCode e.kind] ++ opt32 e.time ++ listBytes itemBytes e.items
      ++ bytesOf 2 e.total)

/-- The expiry given beside a standing: 0 unless VERIFIED. -/
def standingExpiry : Standing → Nat
  | .verified t => t
  | _ => 0

def standingBytes (v : Standing) : List Byte := standingCode v :: bytesOf 4 (standingExpiry v)

def serialBytes (n : Nat) : List Byte := bytesOf 4 n

def inboundBytes (i : Inbound) : List Byte :=
  bytesOf 8 i.identity.toNat ++ bytesOf 4 i.serial ++ massBytes i.gross ++ bytesOf 4 i.time ++ bytesOf 1 i.classCode

def pendingBytes : PendingRec → List Byte
  | .empty => List.replicate 26 0#8
  | .entry i => 1#8 :: (inboundBytes i ++ bytesOf 4 0)
  | .removed i n => 2#8 :: (inboundBytes i ++ bytesOf 4 n)

/-- A record passes its check (R131). -/
def recPasses {α : Type} (layout : α → List Byte) (r : Rec α) : Bool := r.word == checkWord (layout r.contents)

/-- A record laid down whole (R132). -/
def recOf {α : Type} (layout : α → List Byte) (c : α) : Rec α := { contents := c, word := checkWord (layout c) }

/-- What a record holds after a write that did not end well (R132). The bytes of contents that fail their check are
read by nothing, so they are the new contents beside a word that is not theirs (notes/assumptions/7). -/
def recAfter {α : Type} (layout : α → List Byte) (left : Left) (before : Rec α) (c : α) : Rec α :=
  match left with
  | .old => before
  | .new => recOf layout c
  | .corrupt w => { contents := c, word := w }

/-- The contents of a record that passes its check. -/
def recGood {α : Type} (layout : α → List Byte) (r : Rec α) : Option α :=
  if recPasses layout r then some r.contents else none

/-- The check code of a set (R131). -/
def setCode (m : MetroSet) : CheckWord := checkWord (setBytes m)

/-! ### Frames (R198) -/

/-- The characters of a frame: start marker, length, kind, body and check word. -/
def frameBytes (kind : Byte) (body : List Byte) : List Byte :=
  let covered := bytesOf 2 (body.length + 1) ++ kind :: body
  0xA5#8 :: (covered ++ wordBytes (checkWord covered))

def scanFrame (number : Byte) : List Byte := frameBytes 0x01#8 [number]
def signalFrame (lane : Lane) (a : Aspect) : List Byte := frameBytes 0x02#8 [laneCode lane, aspectCode a]

/-- A RESPONSE frame (R201). Of an answer's body the first 508 bytes are sent, which is all that the length R198 allows
the kind leaves room for (notes/assumptions/54). -/
def responseFrame (a : Answer) : List Byte :=
  frameBytes 0x31#8 (a.tag :: a.kind :: statusCode a.status :: a.body.take 508)

def weightFrame (body : List Byte) : List Byte := frameBytes 0x32#8 body
def ticketFrame (body : List Byte) : List Byte := frameBytes 0x33#8 body

/-! ### Ring records as sent (R202) -/

/-- A reason set in a record: a marks byte, its bits in the order of the list (R202). -/
def checkReasonMarks (rs : List CheckReason) : Byte := marksByte (allCheckReasons.map fun r => rs.contains r)

def auditReasonMarks (rs : List AuditReason) : Byte := marksByte (allAuditReasons.map fun r => rs.contains r)

def tareSourceBytes : TareSource → List Byte
  | .pass n => 0#8 :: bytesOf 4 n
  | .stored t => 1#8 :: bytesOf 4 t
  | .none => 2#8 :: bytesOf 4 0

def weighBytes (r : WeighRec) : List Byte :=
  let c := r.capture
  [0#8] ++ bytesOf 4 r.serial ++ [kindCode c.kind] ++ bytesOf 4 r.time ++ identityBytes c.identity
    ++ [BitVec.ofNat 8 c.check.classCode, verdictCode c.check.overall, optCode verdictCode c.check.grossVerdict,
        checkReasonMarks c.check.reasons, marksByte [c.warn, c.tolerated]]
    ++ massBytes c.gross ++ optMass c.tare ++ optMass c.net ++ tareSourceBytes c.source
    ++ bytesOf 4 r.counter ++ wordBytes r.code
    ++ listBytes (fun (p : Nat × Int) => bytesOf 1 p.1 ++ massBytes p.2) c.decks
    ++ listBytes (fun (g : CheckGroup) =>
        [groupTypeCode g.type] ++ optMass g.load ++ massBytes g.limit ++ [verdictCode g.verdict]) c.check.groups

def deckResultBytes (expiry : Nat) (d : DeckResult) : List Byte :=
  [BitVec.ofNat 8 d.deck, auditVerdictCode d.verdict, auditReasonMarks d.reasons, auditVerdictCode d.ecc]
    ++ bytesOf 4 (if d.verdict = .pass then expiry else 0) ++ bytesOf 2 d.traffic

def auditPointBytes (p : Point) : List Byte :=
  bytesOf 1 p.deck ++ massBytes p.nominal ++ bytesOf 1 p.position ++ optMass p.indication ++ optMass p.error
    ++ optMass p.mpe ++ [optCode pointVerdictCode p.verdict]

def auditBytes (r : AuditRec) : List Byte :=
  [1#8] ++ bytesOf 4 r.serial ++ bytesOf 4 r.time ++ [modeCode r.capture.mode] ++ bytesOf 4 r.counter
    ++ wordBytes r.code ++ listBytes (deckResultBytes r.expiry) r.capture.decks
    ++ listBytes auditPointBytes r.capture.points

/-- The body of a TICKET frame (R202). -/
def ringBytes : RingRec → List Byte
  | .weigh r => weighBytes r
  | .audit r => auditBytes r
  | .void a b => [2#8] ++ bytesOf 4 a ++ bytesOf 4 b

/-! ### Notices (R201) -/

/-- The contents of a notice in the order its rule names them. The code 3 of CLEARED in a CELL_FAULT notice, after those of
the reasons of R8, is the model's choice (R17, notes/assumptions/64). -/
def noticeContents : Notice → List Byte
  | .powerUp mode switch counter code lost =>
    [modeCode mode, modeCode switch] ++ bytesOf 4 counter ++ optField 2 (code.map wordBytes) ++ [marksByte [lost]]
  | .cellFlag i node k t v =>
    bytesOf 1 i ++ bytesOf 1 node ++ [monitorCode k, thresholdCode t] ++ sbytesOf 4 v
  | .cellFault i node st =>
    bytesOf 1 i ++ bytesOf 1 node ++ [match st with | some r => cellFaultCode r | none => 3#8]
  | .zeroStale d => bytesOf 1 d
  | .zeroRange d w z => bytesOf 1 d ++ massBytes w ++ massBytes z
  | .residue d g => bytesOf 1 d ++ massBytes g
  | .spanBreach s d c => [slotCode s] ++ bytesOf 1 d ++ [breachCode c]
  | .intrusion d c => bytesOf 1 d ++ [intrusionCode c]
  | .intrusionMove d c => bytesOf 1 d ++ [claimCode c]
  | .duplicateId s i => [slotCode s] ++ identityBytes (some i)
  | .barred s i h => [slotCode s] ++ identityBytes (some i) ++ bytesOf 4 h
  | .ringLow n => bytesOf 4 n
  | .storeFault o k n w => [originCode o, recKindCode k] ++ opt32 n ++ bytesOf 4 w
  | .commitDone c code ds =>
    [logKindCode .commit] ++ bytesOf 4 c ++ wordBytes code ++ listBytes (bytesOf 1) ds
  | .eraseDone c => [logKindCode .erase] ++ bytesOf 4 c
  | .restoreDone c v => [logKindCode .restore] ++ bytesOf 4 c ++ bytesOf 4 v
  | .switchMoved p m => [modeCode p, modeCode m]
  | .pendingExpired i => bytesOf 8 i.identity.toNat ++ bytesOf 4 i.serial ++ massBytes i.gross ++ bytesOf 4 i.time
  | .pendingDropped n i serial => bytesOf 4 n ++ identityBytes i ++ opt32 serial
  | .verificationLapsed d t => bytesOf 1 d ++ bytesOf 4 t
  | .ackRecordLost n => bytesOf 4 n

/-- The body of a NOTICE frame: kind, marks (OVERFLOWED, time set), time of raising, contents. -/
def noticeBody (overflowed : Bool) (n : Stamped) : List Byte :=
  [noticeCode n.notice, marksByte [overflowed, n.time.isSome]] ++ bytesOf 4 (n.time.getD 0) ++ noticeContents n.notice

def noticeFrame (overflowed : Bool) (n : Stamped) : List Byte := frameBytes 0x34#8 (noticeBody overflowed n)

end Sys2Proof.Machine
end

