-- ==== Sys2Proof/Machine/Ops.lean ====
section
/-! DEFINITION. Named reads and writes of the state: settings, tables, the views the spec names (computed, not stored:
notes/assumptions/28), notices, and the claim rules of the slot controller. -/

namespace Sys2Proof.Machine

/-! ### Settings (R189) -/

/-- The value of setting `i`. -/
def State.setting (s : State) (i : Nat) : Int := (s.settings[i]?).getD 0

def State.scanPeriod (s : State) : Nat := (s.setting 0).toNat
def State.missLimit (s : State) : Nat := (s.setting 1).toNat
def State.filterLen (s : State) : Nat := (s.setting 2).toNat
def State.stabilityLen (s : State) : Nat := (s.setting 3).toNat
def State.motionBand (s : State) : Int := s.setting 4
def State.settleMs (s : State) : Nat := (s.setting 5).toNat * 1000
def State.zeroIntervalMs (s : State) : Nat := (s.setting 6).toNat * 60000
def State.quietMs (s : State) : Nat := (s.setting 7).toNat * 1000
def State.groupGap (s : State) : Nat := (s.setting 8).toNat
def State.stripSpacing (s : State) (b : Nat) : Nat := (s.setting (9 + b)).toNat
def State.reportDelayMs (s : State) : Nat := (s.setting 16).toNat
def State.maxIntervalMs (s : State) : Nat := (s.setting 17).toNat * 1000
def State.waitingMs (s : State) : Nat := (s.setting 18).toNat * 1000
def State.pendingExpirySeconds (s : State) : Nat := (s.setting 19).toNat * 3600
def State.tareValiditySeconds (s : State) : Nat := (s.setting 20).toNat * 86400
def State.ringLow (s : State) : Nat := (s.setting 21).toNat
def State.pointMs (s : State) : Nat := (s.setting 22).toNat * 1000

/-! ### Places of the tables -/

def State.modDeck (s : State) (d : Nat) (f : Deck → Deck) : State := { s with decks := s.decks.modify d f }

def State.modCell (s : State) (i : Nat) (f : Cell → Cell) : State := { s with cells := s.cells.modify i f }

def State.slot (s : State) : SlotId → Slot
  | .slot0 => s.slc.slot0
  | .slot1 => s.slc.slot1

def State.setSlot (s : State) (t : SlotId) (v : Slot) : State :=
  match t with
  | .slot0 => { s with slc := { s.slc with slot0 := v } }
  | .slot1 => { s with slc := { s.slc with slot1 := v } }

/-- The other of the two slots. -/
def otherSlot : SlotId → SlotId
  | .slot0 => .slot1
  | .slot1 => .slot0

/-- The slot a request's slot number names (R82, R83, R104). -/
def slotOf (b : Byte) : Option SlotId :=
  if b = 0#8 then some .slot0 else if b = 1#8 then some .slot1 else none

/-- The notice joins the rear of the queue, or is dropped with its count and the overflow mark (R192). -/
def State.raise (s : State) (n : Notice) : State :=
  if s.gpt.notices.length < 8 then
    { s with gpt := { s.gpt with notices := s.gpt.notices ++ [{ time := s.gpt.time, notice := n }] } }
  else
    { s with gpt := { s.gpt with dropped := bump16 s.gpt.dropped, overflow := true } }

/-! ### The active set -/

/-- The division e of the active set (R25); 0 while there is none, where only the reasons of R110 read it
(notes/assumptions/60). -/
def State.division (s : State) : Int := ((s.cal.active.map (·.e)).getD 0 : Nat)

/-- The Max of deck `d` in the active set (R25). -/
def State.deckMax (s : State) (d : Nat) : Int := ((s.cal.active.bind (·.maxes[d]?)).getD 0 : Nat)

/-- The check code of the active set, absent while there is none (R141, R150). -/
def State.activeCode (s : State) : Option CheckWord := s.cal.active.map setCode

/-- The cells a set holds, in position order (R149). -/
def MetroSet.cellList (m : MetroSet) : List CellConst := m.cells.toList.filterMap id

/-! ### Cells and decks -/

/-- The SUSPECT mark of a cell: any alarm flag (R23). -/
def Cell.suspect (c : Cell) : Bool :=
  [0, 3, 4, 7, 8, 11].any fun i => (c.flags[i]?).getD false

/-- The WARN mark of a cell: any warning flag (R23). -/
def Cell.warn (c : Cell) : Bool :=
  [1, 2, 5, 6, 9, 10].any fun i => (c.flags[i]?).getD false

/-- The cells of deck `d`, in cell index order. -/
def State.cellsOf (s : State) (d : Nat) : List Cell := s.cells.filter fun c => c.const.deck == d

def State.deckSuspect (s : State) (d : Nat) : Bool := (s.cellsOf d).any Cell.suspect

def State.deckWarn (s : State) (d : Nat) : Bool := (s.cellsOf d).any Cell.warn

/-- The gross of a deck (R34): absent in FAULT or without a zero. -/
def Deck.gross (k : Deck) : Option Int :=
  match k.fault, k.w, k.zero with
  | none, some w, some z => some (saturate (w - z.z))
  | _, _, _ => none

/-- Deck conditions, in the order of R40. -/
inductive Condition where
  | nozero | fault | overrange | underrange | normal
  deriving DecidableEq, Repr

/-- The condition of a deck of that Max under division e: the first line of R34's table that applies. -/
def Deck.condition (e max : Int) (k : Deck) : Condition :=
  if k.fault.isSome then .fault
  else if k.zero.isNone then .nozero
  else
    match k.gross with
    | some g => if max + 9 * e < g then .overrange else if g < -20 * e then .underrange else .normal
    | none => .normal

def State.condition (s : State) (d : Nat) (k : Deck) : Condition := k.condition s.division (s.deckMax d)

/-- The rounded gross of a deck record: round(G / e) × e (R34). It is not saturated again where a saturated G rounds up
(notes/assumptions/42). -/
def State.roundedGross (s : State) (k : Deck) : Option Int := k.gross.map (roundTo s.division)

/-! ### Claims -/

/-- The claimant of deck `d` (R65). -/
def State.claimOf (s : State) (d : Nat) : Claim := (s.slc.claims[d]?).getD .none

/-- The decks a slot claims, lowest first: its run (R67). -/
def State.runOf (s : State) (t : SlotId) : List Nat :=
  (List.range s.slc.claims.length).filter fun d => s.claimOf d == .slot t

def State.setClaim (s : State) (d : Nat) (c : Claim) : State :=
  { s with slc := { s.slc with claims := s.slc.claims.set d c } }

/-! ### The bridge line -/

/-- The slot that owns an entry, listed or overflow. -/
def Owner.slot? : Owner → Option SlotId
  | .listed t _ => some t
  | .overflow t => some t
  | .stray => none

def Entry.isStray (x : Entry) : Bool := x.owner == .stray

/-- The entry is an axle of slot `t` (listed or overflow). -/
def Entry.ofSlot (t : SlotId) (x : Entry) : Bool := x.owner.slot? == some t

/-- The axle count of a deck (R50). -/
def State.axleCount (s : State) (d : Nat) : Nat :=
  (s.axt.line.filter fun x => x.deck == d && !x.isStray).length

/-- The stray count of a deck (R50). -/
def State.strayCount (s : State) (d : Nat) : Nat :=
  (s.axt.line.filter fun x => x.deck == d && x.isStray).length

def State.hasAxleOn (s : State) (t : SlotId) (d : Nat) : Bool :=
  s.axt.line.any fun x => x.ofSlot t && x.deck == d

def State.hasAxles (s : State) (t : SlotId) : Bool := s.axt.line.any (·.ofSlot t)

/-- A slot's overflow entries (R63). -/
def State.overflowCount (s : State) (t : SlotId) : Nat :=
  (s.axt.line.filter fun x => x.owner == .overflow t).length

/-- A slot's axle list, front first, each axle with its deck (R50, R51). -/
def State.axleList (s : State) (t : SlotId) : List (AxleRec × Nat) :=
  s.axt.line.filterMap fun x =>
    match x.owner with
    | .listed t' a => if t' = t then some (a, x.deck) else none
    | _ => none

/-- The axles of a list cut into groups (R61): an axle joins the group ahead of it when its spacing is known and no
more than the group gap. -/
def groupsOf (gap : Nat) : List (AxleRec × Nat) → List (List (AxleRec × Nat))
  | [] => []
  | a :: rest =>
    let joins := match rest with
      | b :: _ => (b.1.spacing.map fun sp => decide (sp ≤ gap)).getD false
      | [] => false
    match groupsOf gap rest with
    | g :: gs => if joins then (a :: g) :: gs else [a] :: g :: gs
    | [] => [[a]]

/-- Type of a group of `n` axles (R62). -/
def groupType : Nat → GroupType
  | 1 => .single
  | 2 => .tandem
  | 3 => .tri
  | 4 => .quad
  | _ => .invalid

/-- The grouping of a slot (R61): no slot's list can change its grouping by a write of the group gap, since settings
are written only while every slot is FREE (R189). -/
def State.grouping (s : State) (t : SlotId) : List (List (AxleRec × Nat)) := groupsOf s.groupGap (s.axleList t)

/-- The pattern of a slot (R62). -/
def State.pattern (s : State) (t : SlotId) : List GroupType := (s.grouping t).map fun g => groupType g.length

/-- Deck `d` is axle-free (R35). -/
def State.axleFree (s : State) (d : Nat) : Bool :=
  s.axleCount d == 0 && s.strayCount d == 0 && !((s.decks[d]?.map (·.untracked)).getD false)

/-! ### The slot controller's claim rules -/

/-- `d` lies next to the first or the last deck of the run, or the run is empty (R65). -/
def besideRun (run : List Nat) (d : Nat) : Bool :=
  match run.head?, run.getLast? with
  | some a, some b => d + 1 == a || d == b + 1
  | _, _ => true

/-- Deck `d` is claimable by slot `t` (R65). -/
def State.claimable (s : State) (t : SlotId) (d : Nat) : Bool :=
  decide (d < s.slc.claims.length) && s.claimOf d == .none
    && !((s.decks[d]?.map (·.untracked)).getD false)
    && s.strayCount d == 0 && !s.slc.commitMark && besideRun (s.runOf t) d

/-- Trim the run of slot `t` from both ends to the decks that carry its axles (R74). -/
def State.trim (s : State) (t : SlotId) : State :=
  let held := (s.runOf t).filter (s.hasAxleOn t)
  let keep := fun d => held.any (· ≤ d) && held.any (d ≤ ·)
  { s with slc := { s.slc with
      claims := s.slc.claims.mapIdx fun d c => if c = .slot t ∧ !keep d then .none else c } }

/-- The slot, of those offered, that takes deck `d`: the one whose axle stands front-most on it (R75). -/
def State.takerOf (s : State) (ts : List SlotId) (d : Nat) : Option SlotId :=
  (s.axt.line.filterMap fun x => if x.deck == d then x.owner.slot? else none).find?
    fun t => ts.contains t && s.claimable t d

/-- Offer unclaimed decks to the slots `ts` whose axles stand on them, highest deck first, again until no deck
qualifies (R75); `fuel` bounds the repeats by the deck count. -/
def State.offer : Nat → List SlotId → State → State
  | 0, _, s => s
  | fuel + 1, ts, s =>
    match (List.range s.slc.claims.length).reverse.findSome? (fun d => (s.takerOf ts d).map (d, ·)) with
    | some (d, t) => State.offer fuel ts (s.setClaim d (.slot t))
    | none => s

/-- The offer of step 3 of R76 to both slots, for a change of stray counts, UNTRACKED marks or audit claims. Step 3 names
the decks that have become claimable: that every claimable deck the slots' axles stand on is offered, also one claimable
before the change, and also where a stray count only rises, is the model's choice (notes/assumptions/59). -/
def State.offerDecks (s : State) : State := s.offer s.slc.claims.length [.slot0, .slot1]

/-- A slot controller operation on a move of one of slot `t`'s axles onto deck `reached`, or off the bridge: steps 1 to
5 of R76. Steps 6 and 7 end the operation (Machine/Finish.lean). Step 3 names the decks released in step 2, and R75 tests
until no deck qualifies: that, once a deck is released, the other slot is offered every unclaimed deck its axles stand on,
also one not released then, is the model's choice (notes/assumptions/56). -/
def State.slotMove (s : State) (t : SlotId) (reached : Option Nat) : State :=
  let s1 := match reached with
    | some d => if s.claimable t d then s.setClaim d (.slot t) else s
    | none => s
  let s2 := s1.trim t
  let s3 := if s2.slc.claims = s1.slc.claims then s2 else s2.offer s2.slc.claims.length [otherSlot t]
  let v := s3.slot t
  let v1 := { v with quiet := false, quietTimer := some s3.quietMs,
                     state := if v.state = .positioned then .moving else v.state }
  if !s3.hasAxles t && (v1.state = .moving || v1.state = .leaving) then s3.setSlot t freeSlot
  else s3.setSlot t v1

/-! ### Identities -/

/-- The flag number of an identity (R78). -/
def flagNumber (i : Identity) : Nat :=
  let n := i.toNat
  (n % 2048) ^^^ (n / 2 ^ 11 % 2048) ^^^ (n / 2 ^ 22 % 2048) ^^^ (n / 2 ^ 33 % 2048) ^^^ (n / 2 ^ 44 % 2048)
    ^^^ (n / 2 ^ 55)

/-- Flag `h` of the bar table (R78). -/
def State.barFlag (s : State) (h : Nat) : Bool := ((s.slc.bars[h / 32]?).getD 0).getLsbD (h % 32)

/-- The valid permit entry that holds the identity (R79). -/
def State.permitOf (s : State) (i : Identity) : Option Nat :=
  s.slc.permits.toList.findIdx? fun p => p.valid && p.identity == i

/-- Attach an identity to a slot (R79). -/
def State.attach (s : State) (t : SlotId) (i : Identity) : State :=
  if (s.slot (otherSlot t)).identity = some i then s.raise (.duplicateId t i)
  else
    let permit := s.permitOf i
    let barred := permit.isNone && s.barFlag (flagNumber i)
    let s1 := s.setSlot t { s.slot t with identity := some i, permit := permit, barred := barred }
    let s2 := if barred then s1.raise (.barred t i (flagNumber i)) else s1
    if s2.slc.waiting = some i then { s2 with slc := { s2.slc with waiting := none, waitingTimer := none } } else s2

/-- The answer to a request to open a slot (R68). -/
inductive OpenAnswer where
  | noSlot
  | refused
  | opened (t : SlotId)
  deriving DecidableEq, Repr

/-- The FREE slot that would open: slot 0 when both are FREE (R68). -/
def State.freeSlotId (s : State) : Option SlotId :=
  if s.slc.slot0.state = .free then some .slot0
  else if s.slc.slot1.state = .free then some .slot1
  else none

def State.openAnswer (s : State) : OpenAnswer :=
  match s.freeSlotId with
  | none => .noSlot
  | some t => if s.claimable t 0 then .opened t else .refused

/-- Open slot `t` on deck 0, giving it the waiting identity if one is held (R68). -/
def State.openSlot (s : State) (t : SlotId) : State :=
  let s1 := (s.setClaim 0 (.slot t)).setSlot t { freeSlot with state := .moving, quietTimer := some s.quietMs }
  match s.slc.waiting with
  | some i =>
    let s2 := s1.attach t i
    { s2 with slc := { s2.slc with waiting := none, waitingTimer := none } }
  | none => s1

/-- End slot `t`'s transaction without a ticket (R83), for a slot in MOVING, POSITIONED or LEAVING. -/
def State.abort (s : State) (t : SlotId) : State :=
  s.setSlot t { s.slot t with state := .leaving, identity := none, permit := none, barred := false, overHeld := false }

/-- The slot that claims the lane's deck: deck 0 for ENTRY, deck N−1 for EXIT (R83, R104). -/
def State.laneSlot (s : State) (l : Lane) : Option SlotId :=
  match s.claimOf (match l with | .entry => 0 | .exit => s.slc.claims.length - 1) with
  | .slot t => some t
  | _ => none

/-! ### Lane aspects -/

/-- The ENTRY aspect (R85). -/
def State.entryAspect (s : State) : Aspect :=
  match s.openAnswer with
  | .opened _ => .enter
  | _ => .stop

/-- The overall verdict of a held check is INDETERMINATE with SHARED_DECK among its reasons (R86). -/
def CheckResult.sharedDeck : CheckResult → Bool
  | .none => false
  | .current c => c.overall == .indeterminate && c.reasons.contains .sharedDeck
  | .frozen c => c.overall == .indeterminate && c.reasons.contains .sharedDeck

/-- The EXIT aspect: the first line of R86's table that applies. -/
def State.exitAspect (s : State) : Aspect :=
  match s.laneSlot .exit with
  | none => .hold
  | some t =>
    let v := s.slot t
    if v.state = .leaving then .go
    else if v.barred || v.overHeld then .seeOffice
    else if v.spanBreach || v.check.sharedDeck then .reposition
    else .hold

/-! ### Verification, ring and jobs -/

def State.standingOf (s : State) (d : Nat) : Standing := (s.aud.standings[d]?).getD .unverified

/-- A standing that has lapsed at time `now` (R183). -/
def Standing.lapsedAt (now : Nat) : Standing → Bool
  | .verified t => decide (t ≤ now)
  | _ => false

/-- The originator of a job (R133). -/
def Job.origin : Job → Origin
  | .ticket c => .slot c.slot
  | .close _ => .aud
  | .commit => .cal
  | .logErase => .cal
  | .restore _ => .cal
  | .ack _ => .ack
  | .housekeeping _ => .housekeeping

/-- A job of that originator is in the store job queue (R133). -/
def State.jobQueued (s : State) (o : Origin) : Bool := s.mst.jobs.any fun j => j.origin == o

/-- A COMMIT job is in the store job queue. -/
def State.commitQueued (s : State) : Bool := s.mst.jobs.contains .commit

/-- A job that holds a ring reservation: an accepted finalization or AUDIT-CLOSE (R122). -/
def Job.reserves : Job → Bool
  | .ticket _ => true
  | .close _ => true
  | _ => false

/-- Ring reservations: one for each such job, freed as the job ends (R112, R116, R178, R180). -/
def State.reservations (s : State) : Nat := (s.mst.jobs.filter Job.reserves).length

/-- The unreserved free count of the ring (R122). -/
def State.ringFree (s : State) : Nat := 64 - s.tku.ring.length - s.reservations

/-- Identities of the GROSS-IN finalizations in flight (R119). -/
def State.grossInFlight (s : State) : List Identity :=
  s.mst.jobs.filterMap fun j =>
    match j with
    | .ticket c => if c.kind = .grossIn then c.identity else none
    | _ => none

/-- Store records of the entries a job is removing (R119, R120). -/
def Job.removes : Job → List Nat
  | .ticket c => c.pendingRec.toList
  | .housekeeping rs => rs
  | _ => []

/-- The in-flight mark of a pending entry (R119). -/
def State.inFlight (s : State) (p : PendingEntry) : Bool := s.mst.jobs.any fun j => j.removes.contains p.recNo

/-- The usable pending entry of an identity (R119). -/
def State.usablePending (s : State) (i : Identity) : Option PendingEntry :=
  s.tku.pending.find? fun p => p.inbound.identity == i && !s.inFlight p

/-- Either slot not FREE, or an audit run open (R89, R189). -/
def State.notIdle (s : State) : Bool :=
  s.slc.slot0.state != .free || s.slc.slot1.state != .free || s.aud.run != .closed

/-- The part is in SERIAL_LOST (R143). -/
def State.serialLost (s : State) : Bool := s.tku.serials.isNone

end Sys2Proof.Machine
end

