-- ==== Sys2Proof/Machine/Checks.lean ====
section
/-! DEFINITION. The load check unit: classification, group loads, gross and verdicts (05_axle_group_checks.md). -/

namespace Sys2Proof.Machine

/-- The ceiling of a limit under tolerance `t` in 0.1% (R98). -/
def ceilingOf (limit t : Int) : Int := limit + limit * t / 1000

/-- A load judged against its limit and ceiling (R98). -/
def judgeLoad (limit ceiling load : Int) : Verdict :=
  if load ≤ limit then .pass else if load ≤ ceiling then .tolerated else .over

/-- The class entry in use that holds a code (R93). -/
def State.classByCode (s : State) (code : Nat) : Option ClassEntry :=
  (s.classes.toList.filterMap id).find? fun c => c.code == code

/-- The first class entry with that pattern, in index order (R93). -/
def State.classByPattern (s : State) (p : List GroupType) : Option ClassEntry :=
  (s.classes.toList.filterMap id).find? fun c => c.pattern == p

/-- The class code the slot's permit names, 0 for none (R77, R93). -/
def State.permitClass (s : State) (t : SlotId) : Nat :=
  (((s.slot t).permit.bind (s.slc.permits[·]?)).map (·.classCode)).getD 0

/-- The slot's class and how it was found (R93). -/
def State.classOf (s : State) (t : SlotId) : Option (ClassEntry × ClassSource) :=
  match (if s.permitClass t = 0 then none else s.classByCode (s.permitClass t)) with
  | some c => some (c, .permit)
  | none => (s.classByPattern (s.pattern t)).map (·, .pattern)

/-- The unrounded gross of deck `d`, where it has one. -/
def State.grossOf (s : State) (d : Nat) : Option Int := s.decks[d]?.bind Deck.gross

def State.stable (s : State) (d : Nat) : Bool := (s.decks[d]?.map fun k => k.motion == .stable).getD false

/-- The load of a run of decks (R96, R97): the rounded sum of their grosses, or the reason why there is none. -/
def State.loadOf (s : State) (run : List Nat) : Except CheckReason Int :=
  let gs := run.map s.grossOf
  if gs.any (·.isNone) then .error .noGross
  else if run.any fun d => !s.stable d then .error .moving
  else .ok (roundMass s.division (saturate (gs.foldl (fun a g => a + g.getD 0) 0)))

/-- The decks of a group's run, lowest to highest with every deck between (R95). -/
def groupRun (g : List (AxleRec × Nat)) : List Nat :=
  let ds := g.map (·.2)
  match ds.min?, ds.max? with
  | some lo, some hi => (List.range (hi + 1)).filter (lo ≤ ·)
  | _, _ => []

/-- The run of a group carries an entry that is not an axle of the group (R95). -/
def State.shared (s : State) (t : SlotId) (g : List (AxleRec × Nat)) (run : List Nat) : Bool :=
  s.axt.line.any fun x =>
    run.contains x.deck && !(match x.owner with
      | .listed t' a => t' == t && g.any (·.1.name == a.name)
      | _ => false)

/-- A group weighed from its run, or the reason why it is not (R95, R96). -/
def State.groupLoad (s : State) (t : SlotId) (g : List (AxleRec × Nat)) : Except CheckReason Int :=
  let run := groupRun g
  if run.any fun d => s.claimOf d != .slot t then .error .unclaimed
  else if s.shared t g run then .error .sharedDeck
  else s.loadOf run

/-- An entry of the group list that is not weighed for a reason of the whole check (R94). -/
def blankGroup (r : CheckReason) (tol : Int) (p : GroupType × Int) : CheckGroup :=
  { type := p.1, axles := none, decks := none, load := none, limit := p.2, ceiling := ceilingOf p.2 tol,
    verdict := .indeterminate, reason := some r }

/-- An entry of the group list laid against a detected group whose first axle stands at position `first` (R94 to
R98). -/
def State.weighGroup (s : State) (t : SlotId) (tol : Int) (first : Nat) (p : GroupType × Int)
    (g : List (AxleRec × Nat)) : CheckGroup :=
  let run := groupRun g
  let ceiling := ceilingOf p.2 tol
  let base : CheckGroup :=
    { type := p.1, axles := some (first, first + g.length - 1), decks := some (run.head?.getD 0, run.getLast?.getD 0),
      load := none, limit := p.2, ceiling := ceiling, verdict := .indeterminate, reason := none }
  match s.groupLoad t g with
  | .ok load => { base with load := some load, verdict := judgeLoad p.2 ceiling load }
  | .error r => { base with reason := some r }

/-- The detected groups laid against the class's positions in turn (R94). -/
def State.weighGroups (s : State) (t : SlotId) (tol : Int) :
    Nat → List (GroupType × Int) → List (List (AxleRec × Nat)) → List CheckGroup
  | first, p :: ps, g :: gs => s.weighGroup t tol first p g :: State.weighGroups s t tol (first + g.length) ps gs
  | _, _, _ => []

/-- The vehicle gross of a slot, or the reason why there is none (R97). -/
def State.vehicleGross (s : State) (t : SlotId) : Except CheckReason Int :=
  if (s.runOf t).isEmpty then .error .unclaimed else s.loadOf (s.runOf t)

/-- The group list of a check whose class is found (R94). -/
def State.groupList (s : State) (t : SlotId) (c : ClassEntry) (src : ClassSource) : List CheckGroup :=
  let places := c.pattern.zip c.limits
  if (s.slot t).axleOverflow then places.map (blankGroup .overflow c.tolerance)
  else if src = .permit ∧ c.pattern ≠ s.pattern t then places.map (blankGroup .pattern c.tolerance)
  else s.weighGroups t c.tolerance 1 places (s.grouping t)

/-- The overall verdict (R100). -/
def overallVerdict (lost : Bool) (vs : List Verdict) : Verdict :=
  if lost then .indeterminate
  else if vs.contains .over then .over
  else if vs.contains .indeterminate then .indeterminate
  else if vs.contains .tolerated then .tolerated
  else .pass

/-- The reason that absence of the vehicle gross puts in the reason set (R97). -/
def grossReason : Except CheckReason Int → List CheckReason
  | .ok _ => []
  | .error r => [r]

/-- The check of slot `t` computed from the state as it stands (R93 to R100, R103). -/
def State.computeCheck (s : State) (t : SlotId) : Check :=
  let lost := (s.slot t).axleOverflow
  let gross := s.vehicleGross t
  let held := gross.toOption
  match s.classOf t with
  | none =>
    let found := .noClass :: (if lost then [CheckReason.overflow] else []) ++ grossReason gross
    { classCode := 0, source := .none, pattern := s.pattern t, groups := [], gross := held, grossLimit := none,
      grossCeiling := none, grossVerdict := none, overall := .indeterminate,
      reasons := allCheckReasons.filter (found.contains ·), hold := false }
  | some (c, src) =>
    let groups := s.groupList t c src
    let ceiling := ceilingOf c.grossLimit c.tolerance
    let gv := (held.map (judgeLoad c.grossLimit ceiling)).getD .indeterminate
    let found := groups.filterMap (·.reason) ++ grossReason gross
    { classCode := c.code, source := src, pattern := s.pattern t, groups := groups, gross := held,
      grossLimit := some c.grossLimit, grossCeiling := some ceiling, grossVerdict := some gv,
      overall := overallVerdict lost (gv :: groups.map (·.verdict)),
      reasons := allCheckReasons.filter (found.contains ·), hold := c.hold }

/-- Compute slot `t`'s check and hold it as CURRENT (R92, R102). -/
def State.refreshCheck (s : State) (t : SlotId) : State :=
  s.setSlot t { s.slot t with check := .current (s.computeCheck t) }

end Sys2Proof.Machine
end

