-- ==== Sys2Proof/Machine/Finish.lean ====
section
/-! DEFINITION. What ends an operation: marks judged (R72), checks renewed (R92), settle timers (R35), reports that
become due (R43, R44) and lane aspects (R85 to R87). Each follows from what the operation changed, so it is judged once,
by comparing the state before with the state after (notes/assumptions/13). -/

namespace Sys2Proof.Machine

/-! ### SPAN_BREACH and INTRUDED (R72) -/

/-- The front-most deck on which slot `t` has an axle without a claim. -/
def State.breachDeck (s : State) (t : SlotId) : Option Nat :=
  (s.axt.line.find? fun x => x.ofSlot t && s.claimOf x.deck != .slot t).map (·.deck)

/-- An axle of the other slot stands on a deck that slot `t` claims. -/
def State.intrudedNow (s : State) (t : SlotId) : Bool :=
  s.axt.line.any fun x => x.ofSlot (otherSlot t) && s.claimOf x.deck == .slot t

/-- The cause found on a deck, the first of R72's table (the last where none of the others holds:
notes/assumptions/16). -/
def State.breachCause (s : State) (d : Nat) : BreachCause :=
  match s.claimOf d with
  | .slot .slot0 => .slot0
  | .slot .slot1 => .slot1
  | .audit => .audit
  | .none =>
    if (s.decks[d]?.map (·.untracked)).getD false then .untracked
    else if 0 < s.strayCount d then .strays
    else .notAdjacent

/-- Judge both marks of slot `t`, with the notice of a SPAN_BREACH newly set. -/
def State.judgeMarks (s : State) (t : SlotId) : State :=
  let v := s.slot t
  let s1 := s.setSlot t { v with spanBreach := (s.breachDeck t).isSome, intruded := s.intrudedNow t }
  match v.spanBreach, s.breachDeck t with
  | false, some d => s1.raise (.spanBreach t d (s.breachCause d))
  | _, _ => s1

/-! ### Checks (R92) -/

/-- Something of the list of R92 happened to POSITIONED slot `t` between `s0` and `s`. -/
def checkEvent (s0 s : State) (t : SlotId) : Bool :=
  let run := s.runOf t
  (s0.slot t).state != .positioned || s0.runOf t != run
    || (s0.slot t).identity != (s.slot t).identity
    || run.any fun d => s0.stable d != s.stable d || s0.axleCount d != s.axleCount d || s0.strayCount d != s.strayCount d

/-- The standing of slot `t`'s check after an operation that began in `s0` (R92). -/
def State.judgeCheck (s0 : State) (t : SlotId) (s : State) : State :=
  let v := s.slot t
  match v.state with
  | .free => s.setSlot t { v with check := .none }
  | .moving => s.setSlot t { v with check := .none }
  | .positioned => if checkEvent s0 s t then s.refreshCheck t else s
  | .issuing => match v.check with
    | .current c => s.setSlot t { v with check := .frozen c }
    | _ => s
  | .leaving => match v.check with
    | .current c => s.setSlot t { v with check := .frozen c }
    | _ => s

/-! ### Settle timers (R35) -/

/-- The matters R35's conditions rest on. -/
structure SettleInputs where
  hasZero : Bool
  inFault : Bool
  stable : Bool
  axleFree : Bool
  audited : Bool
  checked : Bool
  deriving DecidableEq, Repr

def State.settleInputs (s : State) (d : Nat) : Option SettleInputs :=
  s.decks[d]?.map fun k =>
    { hasZero := k.zero.isSome, inFault := k.fault.isSome, stable := k.motion == .stable, axleFree := s.axleFree d,
      audited := s.claimOf d == .audit, checked := k.checked }

/-- Start, stop or leave the zero settle timer of deck `d`, and clear its checked mark where R35 clears it. -/
def State.judgeSettle (s : State) (d : Nat) : State :=
  s.modDeck d fun k =>
    let quietDeck := s.axleFree d && k.motion == .stable
    let checked := k.checked && quietDeck
    let runs := k.zero.isSome && k.fault.isNone && quietDeck && s.claimOf d != .audit && !checked
    { k with checked := checked, settle := if runs then some (k.settle.getD s.settleMs) else none }

/-! ### Reports (R43, R44, R46) -/

/-- A report of deck `d` carries the extended gross (R46). -/
def State.extended (s : State) (d : Nat) : Bool := s.cal.mode == .cal || s.claimOf d == .audit

/-- The gross a report of deck `d` carries: rounded, or extended under R46; neither is saturated again
(notes/assumptions/42). -/
def State.reportGross (s : State) (d : Nat) : Option Int :=
  (s.grossOf d).map (roundTo (if s.extended d then s.division / 10 else s.division))

/-- The fields of a deck record whose change makes a report due (R43). -/
structure Watched where
  condition : Condition
  fault : Option DeckFault
  motion : Motion
  zeroStatus : ZeroStatus
  suspect : Bool
  untracked : Bool
  claimant : Claim
  standing : Standing
  deriving DecidableEq, Repr

def State.watch (s : State) (d : Nat) : Option Watched :=
  s.decks[d]?.map fun k =>
    { condition := s.condition d k, fault := k.fault, motion := k.motion, zeroStatus := k.zeroStatus,
      suspect := s.deckSuspect d, untracked := k.untracked, claimant := s.claimOf d, standing := s.standingOf d }

/-- The report mark and the delay timer of deck `d` after an operation that began in `s0` (R43, R44). -/
def State.judgeReport (s0 : State) (s : State) (d : Nat) : State :=
  if s0.watch d ≠ s.watch d then s.modDeck d fun k => { k with reportMark := true }
  else if s0.reportGross d ≠ s.reportGross d then
    s.modDeck d fun k => { k with delay := some (k.delay.getD s.reportDelayMs) }
  else s

/-- Settle timer and report of deck `d`. -/
def State.judgeDeck (s0 : State) (s : State) (d : Nat) : State :=
  let s1 := if s0.settleInputs d ≠ s.settleInputs d then s.judgeSettle d else s
  State.judgeReport s0 s1 d

/-! ### Lane aspects (R87) -/

/-- The signal marks: set where a node's aspect differs from the one last sent to it. -/
def State.judgeLanes (s : State) : State :=
  { s with fpt := { s.fpt with
      entryMark := s.fpt.entryMark || s.fpt.entrySent != some s.entryAspect
      exitMark := s.fpt.exitMark || s.fpt.exitSent != some s.exitAspect } }

/-- The end of an operation that began in `s0`. -/
def State.finish (s0 s : State) : State :=
  let s1 := (s.judgeMarks .slot0).judgeMarks .slot1
  let s2 := State.judgeCheck s0 .slot1 (State.judgeCheck s0 .slot0 s1)
  let s3 := (List.range s2.decks.length).foldl (State.judgeDeck s0) s2
  s3.judgeLanes

end Sys2Proof.Machine
end

