-- ==== Sys2Proof/Machine/Flags.lean ====
section
/-! DEFINITION. Cell monitors and their latched flags (1.6 of 01_cells_and_the_scan.md). -/

namespace Sys2Proof.Machine

def Monitor.number : Monitor → Nat
  | .temperature => 0
  | .excitation => 1
  | .drift => 2

def Threshold.number : Threshold → Nat
  | .highAlarm => 0
  | .highWarning => 1
  | .lowWarning => 2
  | .lowAlarm => 3

/-- The place of a (kind, threshold) pair among the twelve flags, thresholds and masks (R20, R21, R189). -/
def flagPlace (k : Monitor) (t : Threshold) : Nat := 4 * k.number + t.number

/-- The threshold setting of a pair (R189: entries 23 to 34). -/
def State.threshold (s : State) (k : Monitor) (t : Threshold) : Int := s.setting (23 + flagPlace k t)

/-- The mask of a pair (R189: entries 35 to 46). -/
def State.masked (s : State) (k : Monitor) (t : Threshold) : Bool := s.setting (35 + flagPlace k t) != 0

/-- The condition of a pair is present for a value (R20). -/
def State.present (s : State) (k : Monitor) (t : Threshold) (v : Int) : Bool :=
  match t with
  | .highAlarm => decide (s.threshold k t < v)
  | .highWarning => decide (s.threshold k t < v)
  | .lowWarning => decide (v < s.threshold k t)
  | .lowAlarm => decide (v < s.threshold k t)

/-- One pair of cell `i` judged on a new value: the flag latches, with its notice unless masked (R21). -/
def State.latch (s : State) (i : Nat) (k : Monitor) (v : Int) (t : Threshold) : State :=
  match s.cells[i]? with
  | none => s
  | some c =>
    if s.present k t v && !(c.flags[flagPlace k t]?.getD false) then
      let s1 := s.modCell i fun c => { c with flags := c.flags.setIfInBounds (flagPlace k t) true }
      if s.masked k t then s1 else s1.raise (.cellFlag i c.const.node k t v)
    else s

/-- A new value of a monitor as a cell keeps it (R18, R19). -/
def Cell.keepValue (c : Cell) (k : Monitor) (v : Int) : Cell :=
  match k with
  | .temperature => { c with temperature := some v }
  | .excitation => { c with excitation := some v }
  | .drift => { c with drift := some v }

/-- The thresholds in the order in which flags of one operation raise their notices (R21). -/
def allThresholds : List Threshold := [.highAlarm, .highWarning, .lowWarning, .lowAlarm]

/-- A value a monitor takes: the cell's index, the monitor and the value. -/
structure Reading where
  cell : Nat
  kind : Monitor
  value : Int
  deriving DecidableEq, Repr

/-- The values monitors take in one operation (R18 to R21): each is kept as its monitor's last value, and all are
evaluated, threshold by threshold in R21's order. At one threshold they go in the order of the list, which is the
model's choice (notes/assumptions/22). -/
def State.monitor (s : State) (rs : List Reading) : State :=
  let s1 := rs.foldl (fun s r => s.modCell r.cell fun c => c.keepValue r.kind r.value) s
  allThresholds.foldl (fun s t => rs.foldl (fun s r => s.latch r.cell r.kind r.value t) s) s1

/-- The last value of a monitor (R18, R19, R22). -/
def Cell.lastValue (c : Cell) : Monitor → Option Int
  | .temperature => c.temperature
  | .excitation => c.excitation
  | .drift => c.drift

/-- Clear one set flag of cell `i` whose condition is absent (R22). -/
def State.ackFlag (s : State) (i : Nat) (k : Monitor) (t : Threshold) : State :=
  match s.cells[i]? with
  | none => s
  | some c =>
    if ((c.lastValue k).map (s.present k t)).getD false then s
    else s.modCell i fun c => { c with flags := c.flags.setIfInBounds (flagPlace k t) false }

/-- ACK-FLAGS on one cell (R22). -/
def State.ackCell (s : State) (i : Nat) : State :=
  [Monitor.temperature, .excitation, .drift].foldl
    (fun s k => allThresholds.foldl (fun s t => s.ackFlag i k t) s) s

/-- The number of flags set in a cell. -/
def Cell.flagsSet (c : Cell) : Nat := (c.flags.toList.filter id).length

end Sys2Proof.Machine
end

