-- ==== Sys2Proof/Machine/Decks.lean ====
section
/-! DEFINITION. The deck processor: sums, windows, motion, zero (02_decks_sum_filter_motion_and_zero.md), with the
capture of a waiting test point (R172), which a deck sum hands its values to. -/

namespace Sys2Proof.Machine

/-- The newest `n` of a window, oldest first. -/
def newest {α : Type} (n : Nat) (xs : List α) : List α := xs.drop (xs.length - n)

/-- A value joins a window of at most `n` (R13, R30, R31). -/
def joinWindow {α : Type} (n : Nat) (xs : List α) (x : α) : List α := newest n (xs ++ [x])

/-- Motion of a full or part-filled motion window (R31): `band` half-divisions of `e`. -/
def judgeMotion (m : Nat) (band e : Int) (xs : List Int) : Motion :=
  match xs.max?, xs.min? with
  | some hi, some lo => if xs.length = m ∧ 2 * (hi - lo) ≤ band * e then .stable else .moving
  | _, _ => .moving

/-- |x| no more than p hundredths of Max (R33: 10, R36 and R37: 2). -/
def withinPercent (p max x : Int) : Bool := decide (100 * |x| ≤ p * max)

/-- |G| no more than half a division (R36, R39). -/
def withinHalf (e g : Int) : Bool := decide (2 * |g| ≤ e)

/-- A restart of a deck's windows (R32), with the raw windows of its cells (R13). -/
def State.restart (s : State) (d : Nat) : State :=
  let s1 := s.modDeck d fun k =>
    { k with filter := [], motionWin := [], w := none, motion := .moving, settle := none, checked := false }
  { s1 with cells := s1.cells.map fun c => if c.const.deck = d then { c with window := [] } else c }

/-- The deck enters FAULT with reason CELL and its windows restart (R28). -/
def State.deckFault (s : State) (d : Nat) : State :=
  (s.modDeck d fun k => { k with fault := some .cell }).restart d

/-- One of the deck's cells has entered FAULT (R28, first case). -/
def State.cellFailed (s : State) (d : Nat) : State :=
  if (s.decks[d]?.bind (·.fault)).isSome then s else s.deckFault d

/-- The zero of a deck set to W: Z moves, the status becomes FRESH and the zero interval timer starts (R36, R37, R38). -/
def Deck.zeroTo (ms : Nat) (w : Int) (k : Deck) : Deck :=
  { k with zero := k.zero.map fun z => { z with z := w }, zeroStatus := .fresh, interval := some ms }

/-- Steps 1 to 3 of R27 on the deck record, but for the UNTRACKED release: the sum joins the windows, motion is
judged, FAULT CELL is left, and a deck with no zero tries for its initial zero (R33). -/
def Deck.takeSum (f m : Nat) (band e max : Int) (ms : Nat) (sum : Int) (k : Deck) : Deck :=
  let filter := joinWindow f k.filter sum
  let w := roundDiv filter.sum filter.length
  let motionWin := joinWindow m k.motionWin w
  let motion := judgeMotion m band e motionWin
  let k1 := { k with filter := filter, w := some w, motionWin := motionWin, motion := motion,
                     fault := if k.fault = some .cell then none else k.fault }
  if k1.zero.isNone ∧ motion = .stable ∧ withinPercent 10 max w then
    { k1 with zero := some { z := w, init := w }, zeroStatus := .fresh, interval := some ms, untracked := false }
  else k1

/-- The UNTRACKED test after a deck sum (R39): STABLE with |G| no more than half a division. -/
def Deck.releases (e : Int) (k : Deck) : Bool :=
  k.untracked && k.motion == .stable && (k.gross.map (withinHalf e)).getD false

/-- The maximum permissible error of a nominal (R174). -/
def mpeOf (e m : Int) : Int := if m ≤ 500 * e then e / 2 else if m ≤ 2000 * e then e else 3 * e / 2

/-- A point captured at unrounded gross `g` (R172, R174). Indication and error are not saturated
(notes/assumptions/42). -/
def Point.capture (e g : Int) (p : Point) : Point :=
  let ind := roundTo (e / 10) g
  let err := ind - p.nominal
  let mpe := mpeOf e p.nominal
  { p with state := .captured, indication := some ind, gross := some g, error := some err, mpe := some mpe,
           verdict := some (if |err| ≤ mpe then .pass else .fail) }

/-- The waiting test point of the run, if it stands on deck `d`, captured where R172 lets it. -/
def State.capturePoint (s : State) (d : Nat) : State :=
  match s.aud.run, s.grossOf d with
  | .waiting, some g =>
    if s.aud.points.any (fun p => p.state == .waiting && p.deck == d) && s.stable d
        && s.axleCount d == 0 && s.strayCount d == 0 then
      { s with aud := { s.aud with
          run := .opened
          timer := none
          points := s.aud.points.map fun p => if p.state = .waiting then p.capture s.division g else p } }
    else s
  | _, _ => s

/-- Taking a deck sum (R27). -/
def State.deckSum (s : State) (d : Nat) (sum : Int) : State :=
  let s1 := s.modDeck d (Deck.takeSum s.filterLen s.stabilityLen s.motionBand s.division (s.deckMax d)
    s.zeroIntervalMs sum)
  let s2 := s1.modDeck d fun k => if k.releases s.division then { k with untracked := false } else k
  let was := (s.decks[d]?.map (·.untracked)).getD false
  let now := (s2.decks[d]?.map (·.untracked)).getD false
  let s3 := if was && !now then s2.offerDecks else s2
  (s3.judgeSettle d).capturePoint d

/-- A complete scan of deck `d` (R26 to R28): each cell's entry is OK or FAULTED. -/
def State.deckScan (s : State) (d : Nat) : State :=
  let cs := s.cellsOf d
  if cs.all fun c => c.entry == .ok then s.deckSum d (saturate ((cs.map fun c => c.mass.getD 0).sum))
  else s.deckFault d

/-- The deck's scan is complete (R26) and not abandoned for it by a commit (R42). -/
def State.scanComplete (s : State) (d : Nat) : Bool :=
  (s.cellsOf d).all (fun c => c.entry != .notReplied) && !((s.decks[d]?.map (·.scanLost)).getD false)

/-- The values a zero check of deck `d` gives the DRIFT monitors: the stored mass of each cell of the deck that has one
(R19). They stand in cell index order, which is the model's choice (notes/assumptions/22). -/
def State.driftReadings (s : State) (d : Nat) : List Reading :=
  s.cells.zipIdx.filterMap fun q =>
    if q.1.const.deck = d then q.1.mass.map fun m => { cell := q.2, kind := .drift, value := m } else none

/-- A zero check of deck `d` (R36): the DRIFT monitors take their values (R19), then the gross is judged. The notices of
its cells' flags go threshold by threshold (R21), and at one threshold in cell index order, as the model chooses
(notes/assumptions/22). -/
def State.zeroCheck (s : State) (d : Nat) : State :=
  let s1 := s.monitor (s.driftReadings d)
  match s1.decks[d]? with
  | none => s1
  | some k =>
    match k.gross, k.w, k.zero with
    | some g, some w, some z =>
      if withinHalf s1.division g then
        if withinPercent 2 (s1.deckMax d) (w - z.init) then s1.modDeck d (Deck.zeroTo s1.zeroIntervalMs w)
        else s1.raise (.zeroRange d w z.init)
      else s1.raise (.residue d g)
    | _, _, _ => s1

/-! ### Rows -/

/-- The outcome of a row that changes nothing while the supply is off (R139, notes/assumptions/9). -/
def whenPowered (s : State) (f : State → State) : Host.Outcome State Fault Refusal :=
  .next (if s.powered then f s else s)

/-- ZERO_SETTLE_EXPIRY (R35): a zero check is made and the checked mark is set. -/
def execZeroSettleExpiry (d : Nat) (s : State) : Host.Outcome State Fault Refusal :=
  whenPowered s fun s =>
    if (s.decks[d]?.bind (·.settle)).isSome then
      State.finish s ((s.zeroCheck d).modDeck d fun k => { k with settle := none, checked := true })
    else s

/-- ZERO_INTERVAL_EXPIRY (R38). -/
def execZeroIntervalExpiry (d : Nat) (s : State) : Host.Outcome State Fault Refusal :=
  whenPowered s fun s =>
    if (s.decks[d]?.bind (·.interval)).isSome then
      State.finish s ((s.modDeck d fun k => { k with interval := none, zeroStatus := .stale }).raise (.zeroStale d))
    else s

/-- REPORT_DELAY_EXPIRY (R44). -/
def execReportDelayExpiry (d : Nat) (s : State) : Host.Outcome State Fault Refusal :=
  whenPowered s fun s =>
    if (s.decks[d]?.bind (·.delay)).isSome then s.modDeck d fun k => { k with delay := none, reportMark := true }
    else s

/-- MAXIMUM_INTERVAL_EXPIRY (R45). -/
def execMaximumIntervalExpiry (d : Nat) (s : State) : Host.Outcome State Fault Refusal :=
  whenPowered s fun s =>
    if (s.decks[d]?.bind (·.maxInterval)).isSome then
      s.modDeck d fun k => { k with maxInterval := none, reportMark := true }
    else s

end Sys2Proof.Machine
end

