-- ==== Sys2Proof/Machine/Operands.lean ====
section
/-! DEFINITION. Requests: their kinds and argument forms (R201), and the execution of the request at the front of the
request queue (R186, R187). -/

namespace Sys2Proof.Machine

/-! ### Kinds and forms (R201) -/

def reqReadEntry : Byte := 0
def reqWriteEntry : Byte := 1
def reqSetTime : Byte := 2
def reqZero : Byte := 3
def reqReIdent : Byte := 4
def reqAbortSlot : Byte := 5
def reqClearStrays : Byte := 6
def reqFinalize : Byte := 7
def reqAckTickets : Byte := 8
def reqResendTickets : Byte := 9
def reqAckFlags : Byte := 10
def reqAuditOpen : Byte := 11
def reqAuditPoint : Byte := 12
def reqAuditClose : Byte := 13
def reqAuditCancel : Byte := 14
def reqZeroCells : Byte := 15
def reqSpanFromPoint : Byte := 16
def reqCommit : Byte := 17
def reqLogErase : Byte := 18
def reqSerialRestore : Byte := 19
def reqReset : Byte := 20

/-- Table codes: 0 for SETTINGS to 11 for IDENTITY, in the order of R188. -/
def tabSettings : Byte := 0
def tabCells : Byte := 1
def tabDecks : Byte := 2
def tabMetro : Byte := 3
def tabClasses : Byte := 4
def tabPermits : Byte := 5
def tabBarred : Byte := 6
def tabSlots : Byte := 7
def tabPending : Byte := 8
def tabAuditlog : Byte := 9
def tabAuditrun : Byte := 10
def tabIdentity : Byte := 11

/-- The tables a WRITE-ENTRY is refused for (R188). -/
def readOnlyTable (t : Byte) : Bool :=
  [tabCells, tabDecks, tabSlots, tabPending, tabAuditlog, tabAuditrun, tabIdentity].contains t

/-- The request kind is one the port knows (R187, R201). -/
def knownKind (k : Byte) : Bool := decide (k.toNat ≤ 20)

/-- The arguments have the form their kind requires (R187, R201). The contents of a WRITE-ENTRY are judged by the
table's own rule. -/
def formOk (kind : Byte) (args : List Byte) : Bool :=
  match kind.toNat with
  | 0 => args.length == 3
  | 1 => decide (3 ≤ args.length)
  | 2 => args.length == 4
  | 3 => args.length == 1
  | 4 => args.length == 9
  | 5 => args.length == 1
  | 6 => args.isEmpty
  | 7 => args.length == 2
  | 8 => args.length == 4
  | 9 => args.length == 4
  | 10 => args.length == 1
  | 11 => match args with
    | n :: ds => ds.length == n.toNat
    | [] => false
  | 12 => args.length == 6
  | 13 => args.isEmpty
  | 14 => args.isEmpty
  | 15 => args.length == 1
  | 16 => args.length == 1
  | 17 => args.isEmpty
  | 18 => args.isEmpty
  | 19 => args.length == 4
  | 20 => args.length == 1
  | _ => false

/-- The READ-ENTRY request of a table and index. -/
def readRequest (tag table : Byte) (index : BitVec 16) : Request :=
  { tag := tag, kind := reqReadEntry, args := table :: bytesOf 2 index.toNat }

/-- The WRITE-ENTRY request of a table, index and contents. -/
def writeRequest (tag table : Byte) (index : BitVec 16) (contents : List Byte) : Request :=
  { tag := tag, kind := reqWriteEntry, args := table :: (bytesOf 2 index.toNat ++ contents) }

/-! ### Execution (R186) -/

/-- The answer of an executed request: the state it leaves, a status and a body. -/
abbrev Answered := State × Status × List Byte

/-- The port executes `r` now: it stands at the front, the response queue has room and the load has ended (R186). -/
def State.canExecute (s : State) (r : Request) : Bool :=
  s.powered && s.gpt.requests.head? == some r && decide (s.gpt.responses.length < 4)

/-- The front request removed from the request queue. -/
def State.popRequest (s : State) : State := { s with gpt := { s.gpt with requests := s.gpt.requests.tail } }

/-- An answer placed in the response queue (R186, R187). -/
def State.answer (s : State) (r : Request) (status : Status) (body : List Byte) : State :=
  { s with gpt := { s.gpt with
      responses := s.gpt.responses ++ [{ tag := r.tag, kind := r.kind, status := status, body := body }] } }

/-- Execute the request `r` as `f` judges it, and place its answer; a request that does not stand at the front, or that
the port may not execute yet, is left where it is (R186, notes/assumptions/4). -/
def execute (r : Request) (s : State) (f : State → Answered) : Host.Outcome State Fault Refusal :=
  if s.canExecute r then
    let a := f s.popRequest
    .next (a.1.answer r a.2.1 a.2.2)
  else .next s

/-- A refusal: nothing changed, no body. -/
def refuse (s : State) (status : Status) : Answered := (s, status, [])

/-- NOT_READY with its reason set (R187, R199). -/
def notReady (s : State) (rs : List Reason) : Answered := (s, .notReady, reasonSet rs)

end Sys2Proof.Machine
end

