-- ==== Sys2Proof/Machine/Axles.lean ====
section
/-! DEFINITION. The axle tracker: crossings, attribution, spacing (03_axle_tracking.md). -/

namespace Sys2Proof.Machine

/-- Direction and strip duration of a crossing (R48). -/
def crossingOf (tA tB : BitVec 32) : Dir × Nat :=
  let d := (tB - tA).toNat
  if 1 ≤ d ∧ d ≤ 2147483647 then (.forward, d) else (.backward, (tA - tB).toNat)

/-- A crossing is suspect (R49): its duration is 0 or too long, or its status is not OK. -/
def suspectCrossing (duration : Nat) (status : Byte) : Bool :=
  duration == 0 || decide (2000000 < duration) || status != 0#8

def State.setLine (s : State) (l : List Entry) : State := { s with axt := { s.axt with line := l } }

/-- A crossing found untracked, or counted as one (R54, R57, R170). One counted for want of room on a deck the audit run
claims counts as that deck's audit traffic (notes/assumptions/50). -/
def State.untrackedCrossing (s : State) (d : Nat) : State :=
  if s.claimOf d = .audit then
    { s with aud := { s.aud with
        traffic := (s.aud.decks.zip s.aud.traffic).map fun p => if p.1 = d then bump16 p.2 else p.2 } }
  else
    { s with axt := { s.axt with
        untracked := s.axt.untracked.setIfInBounds d (bump16 ((s.axt.untracked[d]?).getD 0)) } }

/-- A new axle of slot `t` as it joins: listed while its list holds fewer than 12, else an overflow entry while the
slot holds fewer than 8 (R54, R63). -/
inductive Joining where
  | listed
  | overflow
  | full
  deriving DecidableEq, Repr

def State.joining (s : State) (t : SlotId) : Joining :=
  if (s.axleList t).length < 12 then .listed
  else if s.overflowCount t < 8 then .overflow
  else .full

/-- The strays held are fewer than 64 (R50, R54). -/
def State.strayRoom (s : State) : Bool := decide ((s.axt.line.filter Entry.isStray).length < 64)

/-- What a crossing did to the bridge line (R52, step 2): the line it leaves, the slot whose axle moved and the deck
it reached, the listed axle that crossed, if it is still listed, and the listed axle that left. -/
structure Attribution where
  state : State
  moved : Option (SlotId × Option Nat)
  crossed : Option (SlotId × Nat)
  left : Option Nat

/-- The new record of the axle that crosses (R51, R52 step 3). -/
def newAxle (s : State) (duration : Nat) (suspect : Bool) : AxleRec :=
  { name := s.axt.nextAxle, spacing := none, duration := duration, suspect := suspect }

/-- An entry added at the rear (entry) or the front (return) of the line. -/
def addEntry (front : Bool) (l : List Entry) (x : Entry) : List Entry := if front then x :: l else l ++ [x]

/-- An axle of slot `t` joins on deck `d` (R54, R56, R63). -/
def State.joinSlot (s : State) (front : Bool) (t : SlotId) (d duration : Nat) (suspect : Bool) : Attribution :=
  match s.joining t with
  | .listed =>
    let a := newAxle s duration suspect
    { state := { s with axt := { s.axt with
        line := addEntry front s.axt.line { owner := .listed t a, deck := d }, nextAxle := s.axt.nextAxle + 1 } }
      moved := some (t, some d), crossed := some (t, a.name), left := none }
  | .overflow =>
    let s1 := s.setLine (addEntry front s.axt.line { owner := .overflow t, deck := d })
    { state := s1.setSlot t { s1.slot t with axleOverflow := true }
      moved := some (t, some d), crossed := none, left := none }
  | .full => { state := s.untrackedCrossing d, moved := none, crossed := none, left := none }

/-- A new stray on deck `d` with its INTRUSION notice (R54, R56, R58). -/
def State.addStray (s : State) (front : Bool) (d : Nat) (cause : IntrusionCause) : Attribution :=
  if s.strayRoom then
    { state := (s.setLine (addEntry front s.axt.line { owner := .stray, deck := d })).raise (.intrusion d cause)
      moved := none, crossed := none, left := none }
  else { state := s.untrackedCrossing d, moved := none, crossed := none, left := none }

/-- A forward crossing at boundary 0 (R54). -/
def State.enterBridge (s : State) (duration : Nat) (suspect : Bool) : Attribution :=
  match s.claimOf 0 with
  | .slot t => s.joinSlot false t 0 duration suspect
  | .audit => s.addStray false 0 .claimed
  | .none =>
    match s.openAnswer with
    | .opened t => (s.openSlot t).joinSlot false t 0 duration suspect
    | .noSlot => s.addStray false 0 .noSlot
    | .refused => s.addStray false 0 .refused

/-- A reverse crossing at boundary N (R56). -/
def State.returnBridge (s : State) (d duration : Nat) (suspect : Bool) : Attribution :=
  match s.claimOf d with
  | .slot t => s.joinSlot true t d duration suspect
  | .audit => s.addStray true d .claimed
  | .none => s.addStray true d .claimed

/-- The name of a listed axle. -/
def Owner.name? : Owner → Option Nat
  | .listed _ a => some a.name
  | _ => none

/-- The slot and name of a listed axle. -/
def Owner.listed? : Owner → Option (SlotId × Nat)
  | .listed t a => some (t, a.name)
  | _ => none

/-- The entry at place `i` leaves the bridge (R55, R56). -/
def State.removeEntry (s : State) (i : Nat) : Attribution :=
  { state := s.setLine (s.axt.line.eraseIdx i)
    moved := (s.axt.line[i]?.bind (·.owner.slot?)).map (·, none)
    crossed := none
    left := s.axt.line[i]?.bind (·.owner.name?) }

/-- The entry at place `i` moves to deck `d` (R52 step 3, R53), a stray with its INTRUSION notice where R58 gives one. -/
def State.moveEntry (s : State) (i d duration : Nat) (suspect : Bool) : Attribution :=
  let s1 := s.setLine (s.axt.line.modify i fun x =>
    { deck := d, owner := match x.owner with
        | .listed t a => .listed t { a with duration := duration, suspect := suspect }
        | o => o })
  let stray := (s.axt.line[i]?.map Entry.isStray).getD false
  { state := if stray && s.claimOf d != .none then s1.raise (.intrusionMove d (s.claimOf d)) else s1
    moved := (s.axt.line[i]?.bind (·.owner.slot?)).map (·, some d)
    crossed := s.axt.line[i]?.bind (·.owner.listed?)
    left := none }

/-- Place of the front-most entry on deck `d`. -/
def State.frontOn (s : State) (d : Nat) : Option Nat := s.axt.line.findIdx? (·.deck == d)

/-- Place of the last entry of the line that `p` holds of. -/
def lastIdx (p : Entry → Bool) (l : List Entry) : Option Nat :=
  (l.zipIdx.filter fun q => p q.1).getLast?.map (·.2)

/-- Place of the rear-most entry on deck `d`. -/
def State.rearOn (s : State) (d : Nat) : Option Nat := lastIdx (·.deck == d) s.axt.line

/-- Place of the entry a reverse crossing at boundary 0 takes off: the rear-most stray on deck 0, or else the rear-most
entry there (R55). -/
def State.leaverAtEntry (s : State) : Option Nat :=
  (lastIdx (fun x => x.deck == 0 && x.isStray) s.axt.line).or (s.rearOn 0)

/-- Attribution where the source deck is empty (R57). -/
def State.untrackedAt (s : State) (d : Nat) : Attribution :=
  { state := s.untrackedCrossing d, moved := none, crossed := none, left := none }

/-- The attribution of a crossing (R53 to R57). -/
def State.attribute (s : State) (b : Nat) (dir : Dir) (duration : Nat) (suspect : Bool) : Attribution :=
  let n := s.decks.length
  match dir with
  | .forward =>
    if b = 0 then s.enterBridge duration suspect
    else
      match s.frontOn (b - 1) with
      | none => s.untrackedAt (b - 1)
      | some i => if b = n then s.removeEntry i else s.moveEntry i b duration suspect
  | .backward =>
    if b = 0 then
      match s.leaverAtEntry with
      | none => s.untrackedAt 0
      | some i => s.removeEntry i
    else if b = n then s.returnBridge (n - 1) duration suspect
    else
      match s.rearOn b with
      | none => s.untrackedAt b
      | some i => s.moveEntry i (b - 1) duration suspect

/-- The spacing two crossings give (R60), none above 65,535 mm. -/
def spacingOf (strip dt dP dC : Nat) : Option Nat :=
  let v := (roundDiv (strip * 2 * dt) (dP + dC)).toNat
  if v ≤ 65535 then some v else none

/-- `y` stands immediately ahead of `x` in the list of names. -/
def aheadOf (y x : Nat) : List Nat → Bool
  | a :: b :: rest => (a == y && b == x) || aheadOf y x (b :: rest)
  | _ => false

/-- Axle `y` of the record's crossing stands beside axle `x` of this one on the side its direction asks (R60): ahead of
it for a forward crossing, behind it for a reverse one. -/
def besideFor (dir : Dir) (y x : Nat) (names : List Nat) : Bool :=
  match dir with
  | .forward => aheadOf y x names
  | .backward => aheadOf x y names

/-- The axle of slot `t` whose spacing crossing C measures against record P, and the spacing (R60). -/
def State.measured (s : State) (b : Nat) (p c : Crossing) : Option (Nat × Nat) :=
  match p.axle, c.axle with
  | some (t, y), some (t', x) =>
    let names := (s.axleList t).map (·.1.name)
    let dt := (c.tA - p.tA).toNat
    if t = t' ∧ p.dir = c.dir ∧ p.suspect = false ∧ c.suspect = false ∧ besideFor c.dir y x names = true
        ∧ 1 ≤ dt ∧ dt ≤ 60000000 then
      (spacingOf (s.stripSpacing b) dt p.duration c.duration).map fun v =>
        (match c.dir with | .forward => x | .backward => y, v)
    else none
  | _, _ => none

/-- Change the record of the listed axle of that name. -/
def State.modAxle (s : State) (name : Nat) (f : AxleRec → AxleRec) : State :=
  s.setLine (s.axt.line.map fun x =>
    match x.owner with
    | .listed t a => if a.name = name then { x with owner := .listed t (f a) } else x
    | _ => x)

/-- The first axle of a slot's list has its spacing absent (R51, R52 step 5). -/
def State.clearFront (s : State) (t : SlotId) : State :=
  match s.axleList t with
  | (a, _) :: _ => s.modAxle a.name fun a => { a with spacing := none }
  | [] => s

/-- Last-crossing records after an axle has left its list (R59). -/
def forgetAxle (left : Option Nat) (p : Crossing) : Crossing :=
  if (p.axle.map (·.2)) = left ∧ left.isSome then { p with axle := none } else p

/-- Step 4 of R52: a spacing is measured and stored, and the boundary's last-crossing record is replaced. A return at
boundary N behind another one is measured like any pair, so the former first axle then has a spacing
(notes/assumptions/51). -/
def State.recordCrossing (s : State) (b : Nat) (c : Crossing) (left : Option Nat) : State :=
  let s1 := match ((s.axt.last[b]?).getD none).bind (fun p => s.measured b p c) with
    | some (name, v) => s.modAxle name fun a => { a with spacing := some v }
    | none => s
  { s1 with axt := { s1.axt with
      last := (s1.axt.last.map fun p => p.map (forgetAxle left)).setIfInBounds b (some c) } }

/-- A crossing taken (R52). -/
def State.takeCrossing (s : State) (b : Nat) (tA tB : BitVec 32) (status : Byte) : State :=
  let (dir, duration) := crossingOf tA tB
  let suspect := suspectCrossing duration status
  let s0 := if suspect then { s with axt := { s.axt with suspect := bump16 s.axt.suspect } } else s
  let a := s0.attribute b dir duration suspect
  let c : Crossing := { tA := tA, tB := tB, dir := dir, duration := duration, suspect := suspect, axle := a.crossed }
  let s1 := ((a.state.recordCrossing b c a.left).clearFront .slot0).clearFront .slot1
  let s2 := match a.moved with
    | some (t, reached) => s1.slotMove t reached
    | none => if s1.axt.line.map (fun x => (x.isStray, x.deck)) = s.axt.line.map (fun x => (x.isStray, x.deck)) then s1
        else s1.offerDecks
  State.finish s s2

/-- An AXLE frame that passed the field port's checks (R47). -/
def State.takeAxle (s : State) (boundary : Byte) (tA tB : BitVec 32) (status : Byte) : State :=
  let b := boundary.toNat
  if s.decks.length < b then { s with axt := { s.axt with unknownBoundary := bump16 s.axt.unknownBoundary } }
  else if (((s.axt.last[b]?).getD none).map fun p => (p.tA, p.tB)) = some (tA, tB) then
    { s with axt := { s.axt with repeated := bump16 s.axt.repeated } }
  else s.takeCrossing b tA tB status

end Sys2Proof.Machine
end

