-- ==== Sys2Proof/Machine/Params.lean ====
section
/-! DEFINITION. Metrological sets compared parameter by parameter: the parameter order, differences, changed decks and
change items (R153, R163, R204). -/

namespace Sys2Proof.Machine

/-- A parameter of a set, named as R153 orders them: of the bridge by field, of a deck, or of a node address by field
(fields as R204 numbers them). -/
inductive Param where
  | bridge (field : Nat)
  | max (deck : Nat)
  | cell (node field : Nat)
  deriving DecidableEq, Repr

/-- The cell of a node address, where the set holds one. -/
def MetroSet.cellAt (m : MetroSet) (node : Nat) : Option CellConst := m.cellList.find? fun c => c.node == node

/-- Position of a node address among the 32 cell positions. -/
def MetroSet.position (m : MetroSet) (node : Nat) : Option Nat :=
  m.cells.toList.findIdx? fun c => (c.map (·.node)) == some node

/-- Field `f` of a cell entry (R204): deck 1, zero count 2, span 3, corner 4, breakpoint count 5, then x and e of
breakpoints 1 to 4 as fields 6 to 13, absent beyond the count. -/
def CellConst.field (c : CellConst) (f : Nat) : Option Int :=
  match f with
  | 1 => some (c.deck : Int)
  | 2 => some c.zero
  | 3 => some (c.span : Int)
  | 4 => some (c.corner : Int)
  | 5 => some (c.breaks.length : Int)
  | _ => c.breaks[(f - 6) / 2]?.map fun b => if (f - 6) % 2 = 0 then (b.1 : Int) else b.2

/-- The value of a parameter in a set, where the set has it. -/
def MetroSet.param (m : MetroSet) : Param → Option Int
  | .bridge 0 => some (m.n : Int)
  | .bridge 1 => some (m.e : Int)
  | .bridge _ => some (m.interval : Int)
  | .max d => m.maxes[d]?.map fun v => (v : Int)
  | .cell node f => (m.cellAt node).bind (·.field f)

/-- The node addresses either set holds, lowest first. -/
def nodesOf (working : MetroSet) (active : Option MetroSet) : List Nat :=
  (List.range 64).filter fun v => (working.cellAt v).isSome || ((active.bind (·.cellAt v)).isSome)

/-- The parameters of the two sets in parameter order (R153). -/
def paramOrder (working : MetroSet) (active : Option MetroSet) : List Param :=
  [.bridge 0, .bridge 1, .bridge 2] ++ (List.range 6).map .max
    ++ (nodesOf working active).flatMap fun v => (List.range 13).map fun f => .cell v (f + 1)

/-- The parameter differs between the sets (R153); with no active set, every parameter present differs. -/
def differs (working : MetroSet) (active : Option MetroSet) (p : Param) : Bool :=
  working.param p != active.bind (·.param p)

/-- The parameters that differ, in parameter order. -/
def differences (working : MetroSet) (active : Option MetroSet) : List Param :=
  (paramOrder working active).filter (differs working active)

/-- The working set equals the active set (R153). -/
def sameSet (working : MetroSet) (active : Option MetroSet) : Bool :=
  match active with
  | none => false
  | some a => (differences working active).isEmpty
      && working.cellList.map (·.node) == a.cellList.map (·.node)

/-- Either set maps the node address to deck `d`. -/
def onDeck (working : MetroSet) (active : Option MetroSet) (d node : Nat) : Bool :=
  (working.cellAt node).any (·.deck == d) || ((active.bind (·.cellAt node)).any (·.deck == d))

/-- Deck `d` of the working set has changed (R153). -/
def deckChanged (working : MetroSet) (active : Option MetroSet) (d : Nat) : Bool :=
  active.isNone || (differences working active).any fun p =>
    match p with
    | .bridge f => f != 2
    | .max d' => d' == d
    | .cell v _ => onDeck working active d v

/-- The decks a commit changes, lowest first (R153, R42). -/
def changedDecks (working : MetroSet) (active : Option MetroSet) : List Nat :=
  (List.range working.n).filter (deckChanged working active)

/-- The METRO index a change item names the parameter's entry by (R204): of a node in both sets, the working set's
position (notes/assumptions/25). -/
def metroIndex (working : MetroSet) (active : Option MetroSet) : Param → Nat
  | .bridge _ => 0
  | .max d => 1 + d
  | .cell v _ => 7 + ((working.position v).or (active.bind (·.position v))).getD 0

/-- The field number a change item names the parameter by (R204). -/
def paramField : Param → Nat
  | .bridge f => f
  | .max _ => 0
  | .cell _ f => f

/-- The change item of a parameter (R163, R204). -/
def changeItem (working : MetroSet) (active : Option MetroSet) (p : Param) : ChangeItem :=
  { index := metroIndex working active p, field := paramField p, old := active.bind (·.param p),
    new := working.param p }

end Sys2Proof.Machine
end

