-- ==== Sys2Proof/Machine/Slots.lean ====
section
/-! DEFINITION. Rows of the slot controller (04_weighing_slots_and_lane_control.md): timers, identities, aborts, strays,
and its permit and bar tables. -/

namespace Sys2Proof.Machine

/-- QUIET_TIMER_EXPIRY (R69). -/
def execQuietTimerExpiry (t : SlotId) (s : State) : Host.Outcome State Fault Refusal :=
  whenPowered s fun s =>
    let v := s.slot t
    if v.quietTimer.isSome then
      State.finish s (s.setSlot t { v with quiet := true, quietTimer := none,
                                           state := if v.state = .moving then .positioned else v.state })
    else s

/-- I becomes the waiting identity and its lifetime starts (R80, R81). -/
def State.holdIdentity (s : State) (i : Identity) : State :=
  { s with slc := { s.slc with waiting := some i, waitingTimer := some s.waitingMs } }

/-- The slot on deck 0 that lacks an identity and may take one (R80, case 2). -/
def State.entrySlot (s : State) : Option SlotId :=
  match s.laneSlot .entry with
  | some t =>
    let v := s.slot t
    if (v.state = .moving ∨ v.state = .positioned) ∧ v.identity.isNone then some t else none
  | none => none

/-- An IDENT frame that passed the field port's checks (R80). -/
def State.takeIdent (s : State) (l : Lane) (i : Identity) : State :=
  if l = .exit ∨ i = 0#64 then s
  else
    match s.entrySlot with
    | some t => State.finish s (s.attach t i)
    | none =>
      if s.slc.slot0.identity = some i ∨ s.slc.slot1.identity = some i then s else s.holdIdentity i

/-- WAITING_IDENTITY_EXPIRY (R81). -/
def execWaitingIdentityExpiry (s : State) : Host.Outcome State Fault Refusal :=
  whenPowered s fun s =>
    if s.slc.waitingTimer.isSome then { s with slc := { s.slc with waiting := none, waitingTimer := none } } else s

/-- A CANCEL key from a lane (R83): ABORT-SLOT on the slot that claims the lane's deck, or ignored. -/
def State.takeCancel (s : State) (l : Lane) : State :=
  match s.laneSlot l with
  | some t =>
    match (s.slot t).state with
    | .free => s
    | .issuing => s
    | .moving => State.finish s (s.abort t)
    | .positioned => State.finish s (s.abort t)
    | .leaving => State.finish s (s.abort t)
  | none => s

/-- The outcome RE-IDENT answers (R82): PERMIT with the entry index, BARRED, or PLAIN. -/
def identOutcome (v : Slot) : List Byte :=
  (if v.permit.isSome then 0#8 else if v.barred then 1#8 else 2#8) :: opt32 v.permit

/-- RE_IDENT (R82). A slot number beyond 1 is judged before the identity (notes/assumptions/4). -/
def execReIdent (tag n : Byte) (i : Identity) (s : State) : Host.Outcome State Fault Refusal :=
  execute { tag := tag, kind := reqReIdent, args := n :: bytesOf 8 i.toNat } s fun s =>
    match slotOf n with
    | none => refuse s .badIndex
    | some t =>
      if i = 0#64 then refuse s .badValue
      else
        let v := s.slot t
        let rs := reasonsWhere
          [(Reason.slotState, v.state == .free || v.state == .issuing || v.state == .leaving),
           (Reason.hasIdentity, v.identity.isSome)]
        if rs ≠ [] then notReady s rs
        else
          let s1 := s.attach t i
          if (s1.slot t).identity.isSome then (State.finish s s1, .ok, identOutcome (s1.slot t))
          else (State.finish s s1, .duplicate, [])

/-- ABORT_SLOT (R83). -/
def execAbortSlot (tag n : Byte) (s : State) : Host.Outcome State Fault Refusal :=
  execute { tag := tag, kind := reqAbortSlot, args := [n] } s fun s =>
    match slotOf n with
    | none => refuse s .badIndex
    | some t =>
      match (s.slot t).state with
      | .free => notReady s [.slotState]
      | .issuing => refuse s .busy
      | .moving => (State.finish s (s.abort t), .ok, [])
      | .positioned => (State.finish s (s.abort t), .ok, [])
      | .leaving => (State.finish s (s.abort t), .ok, [])

/-- Every stray leaves the bridge line (R58). -/
def State.dropStrays (s : State) : State :=
  { s with axt := { s.axt with line := s.axt.line.filter fun x => !x.isStray } }

/-- CLEAR_STRAYS (R84). -/
def execClearStrays (tag : Byte) (s : State) : Host.Outcome State Fault Refusal :=
  execute { tag := tag, kind := reqClearStrays, args := [] } s fun s =>
    (State.finish s s.dropStrays.offerDecks, .ok, bytesOf 4 (s.axt.line.filter Entry.isStray).length)

/-! ### The permit table (R77) -/

/-- A permit entry as the PERMITS table gives it (R77, R199). -/
def permitBytes (p : Permit) : List Byte :=
  bytesOf 8 p.identity.toNat ++ bytesOf 1 p.classCode ++ optMass (p.tare.map fun t => (t.1 : Int))
    ++ opt32 (p.tare.map (·.2)) ++ [marksByte [p.valid]]

/-- The fields of a permit entry as written: identity, class code, tare, tare time, valid (R77, R199). -/
structure PermitFields where
  identity : Identity
  classCode : Nat
  tare : Option Int
  time : Option Nat
  valid : Bool
  deriving DecidableEq, Repr

/-- A mass field, 0x80000000 being absent (R199). -/
def massOf (bs : List Byte) : Option Int := if bs = [0x80#8, 0#8, 0#8, 0#8] then none else some (intOf bs)

/-- A 4-byte optional field with its presence byte; none for a form R199 does not give. -/
def presentOf (bs : List Byte) : Option (Option Nat) :=
  match bs with
  | p :: rest =>
    if p = 1#8 then some (some (natOf rest))
    else if p = 0#8 ∧ natOf rest = 0 then some none
    else none
  | [] => none

/-- A marks byte that holds one mark; bits not named are 0 (R199). -/
def markOf (b : Byte) : Option Bool := if b = 0#8 then some false else if b = 1#8 then some true else none

/-- The fields of a PERMITS entry's contents, none where the form is not R199's. -/
def permitFields (bs : List Byte) : Option PermitFields :=
  if bs.length = 19 then
    match presentOf ((bs.drop 13).take 5), markOf (bs.getD 18 0#8) with
    | some time, some valid =>
      some { identity := BitVec.ofNat 64 (natOf (bs.take 8)), classCode := (bs.getD 8 0#8).toNat,
             tare := massOf ((bs.drop 9).take 4), time := time, valid := valid }
    | _, _ => none
  else none

/-- The entry the fields make, none where R77 answers BAD_VALUE. -/
def PermitFields.entry? (f : PermitFields) : Option Permit :=
  if f.valid ∧ f.identity = 0#64 then none
  else
    match f.tare, f.time with
    | none, none => some { identity := f.identity, classCode := f.classCode, tare := none, valid := f.valid }
    | some t, some time =>
      if t < 0 then none
      else some { identity := f.identity, classCode := f.classCode, tare := some (t.toNat, time), valid := f.valid }
    | _, _ => none

/-- Another valid entry holds the identity (R77). -/
def State.permitTaken (s : State) (i : Nat) (p : Permit) : Bool :=
  p.valid && (s.slc.permits.toList.zipIdx.any fun q => q.2 != i && q.1.valid && q.1.identity == p.identity)

/-- A slot's permit index after entry `i` was written with `p`, and its check where R92 renews it (R77). -/
def State.refreshPermit (i : Nat) (p : Permit) (s : State) (t : SlotId) : State :=
  let v := s.slot t
  if v.permit = some i then
    let s1 := if p.valid ∧ v.identity = some p.identity then s else s.setSlot t { v with permit := none }
    if v.state = .positioned then s1.refreshCheck t else s1
  else s

/-- Permit entry `i` written with `p`, and the slots that point at it refreshed (R77, R92). -/
def State.putPermit (s : State) (i : Nat) (p : Permit) : State :=
  let s1 := { s with slc := { s.slc with permits := s.slc.permits.setIfInBounds i p } }
  [SlotId.slot0, .slot1].foldl (State.refreshPermit i p) s1

/-- READ_ENTRY_PERMITS (R77). -/
def execReadEntryPermits (tag : Byte) (index : BitVec 16) (s : State) : Host.Outcome State Fault Refusal :=
  execute (readRequest tag tabPermits index) s fun s =>
    match s.slc.permits[index.toNat]? with
    | some p => (s, .ok, permitBytes p)
    | none => refuse s .badIndex

/-- WRITE_ENTRY_PERMITS (R77). Contents of its form are judged BAD_INDEX, BAD_VALUE, DUPLICATE in that order
(notes/assumptions/4). -/
def execWriteEntryPermits (tag : Byte) (index : BitVec 16) (contents : List Byte) (s : State) :
    Host.Outcome State Fault Refusal :=
  execute (writeRequest tag tabPermits index contents) s fun s =>
    match permitFields contents with
    | none => refuse s .badValue
    | some f =>
      if 31 < index.toNat then refuse s .badIndex
      else
        match f.entry? with
        | none => refuse s .badValue
        | some p =>
          if s.permitTaken index.toNat p then refuse s .duplicate
          else (State.finish s (s.putPermit index.toNat p), .ok, permitBytes p)

/-! ### The bar table (R78) -/

/-- READ_ENTRY_BARRED (R78). -/
def execReadEntryBarred (tag : Byte) (index : BitVec 16) (s : State) : Host.Outcome State Fault Refusal :=
  execute (readRequest tag tabBarred index) s fun s =>
    match s.slc.bars[index.toNat]? with
    | some w => (s, .ok, bytesOf 4 w.toNat)
    | none => refuse s .badIndex

/-- WRITE_ENTRY_BARRED (R78). -/
def execWriteEntryBarred (tag : Byte) (index : BitVec 16) (contents : List Byte) (s : State) :
    Host.Outcome State Fault Refusal :=
  execute (writeRequest tag tabBarred index contents) s fun s =>
    if contents.length ≠ 4 then refuse s .badValue
    else if 63 < index.toNat then refuse s .badIndex
    else
      ({ s with slc := { s.slc with
          bars := s.slc.bars.setIfInBounds index.toNat (BitVec.ofNat 32 (natOf contents)) } }, .ok, contents)

end Sys2Proof.Machine
end

