-- ==== Sys2Proof/Machine/Store.lean ====
section
/-! DEFINITION. The metrology store's jobs: submission, beginning, writing, completion and failure
(07_the_metrology_store.md), with what each originator does at its job's end, and row RECORD_WRITE_DONE. -/

namespace Sys2Proof.Machine

/-! ### What the store holds -/

/-- A pending record is free for a GROSS-IN (R134), `issued` being the last issued serial. -/
def pendingFree (issued : Nat) (r : Rec PendingRec) : Bool :=
  match recGood pendingBytes r with
  | none => true
  | some .empty => true
  | some (.entry i) => decide (issued < i.serial)
  | some (.removed _ n) => decide (n ≤ issued)

/-- The lowest-numbered free pending record. -/
def State.freePending (s : State) : Option Nat :=
  s.mst.store.pending.toList.findIdx? (pendingFree ((s.tku.serials.map (·.issued)).getD 0))

/-- What a pending record is reconciled to, where `stale` tells the serials beyond the value it is judged against
(R135, R166). -/
def reconciled (stale : Nat → Bool) (r : Rec PendingRec) : Option PendingRec :=
  match recGood pendingBytes r with
  | some (.entry i) => if stale i.serial then some .empty else none
  | some (.removed i n) => if stale n then some (.entry i) else none
  | _ => none

/-- The reconciling writes, lowest number first, passing over the records named (R135, R166). -/
def State.reconcileWrites (s : State) (stale : Nat → Bool) (skip : List Nat) : List Write :=
  s.mst.store.pending.toList.zipIdx.filterMap fun q =>
    if skip.contains q.2 then none else (reconciled stale q.1).map (.pending q.2)

/-- The check code that stands in the counter record, or that of the active set (R135: "present check code"). -/
def State.presentCode (s : State) : CheckWord :=
  match recGood counterBytes s.mst.store.counter with
  | some c => c.code
  | none => s.activeCode.getD Config.absentCheckCode

/-- The log slot a CAL job writes (R134). -/
def State.nextLogSlot (s : State) : Nat :=
  match s.mst.newestSlot with
  | some k => (k + 1) % 32
  | none => 0

/-! ### Beginning a job (R134, R135) -/

/-- The log entry a CAL job writes (R163, R164). -/
def State.logEntry (s : State) : Job → Option LogEntry
  | .commit =>
    let ps := differences s.cal.working s.cal.active
    some { counter := s.cal.counter + 1, kind := .commit, time := s.gpt.time,
           items := (ps.take 8).map (changeItem s.cal.working s.cal.active), total := ps.length }
  | .logErase =>
    some { counter := s.cal.counter + 1, kind := .erase, time := s.gpt.time, items := [],
           total := s.cal.log.length }
  | .restore v =>
    let item := fun (f : Nat) (old : Option Nat) =>
      ({ index := 255, field := f, old := old.map fun n => (n : Int), new := some (v : Int) } : ChangeItem)
    some { counter := s.cal.counter + 1, kind := .restore, time := s.gpt.time,
           items := [item 0 (s.tku.serials.map (·.issued)), item 1 (s.tku.serials.map (·.acked))], total := 2 }
  | _ => none

/-- The values fixed at the beginning of a job, its writes not yet formed (R134, R178). The serial is the last issued plus
one, also where that passes 4,294,967,295 (notes/assumptions/52). -/
def State.fixed (s : State) (j : Job) : Running :=
  { serial := (s.tku.serials.map (·.issued)).getD 0 + 1
    time := s.gpt.time
    counter := s.cal.counter
    code := match j with
      | .commit => setCode s.cal.working
      | .logErase => s.presentCode
      | .restore _ => s.presentCode
      | _ => s.activeCode.getD Config.absentCheckCode
    recNo := match j with
      | .ticket c => if c.kind = .grossIn then s.freePending else none
      | _ => none
    expiry := min (s.gpt.time.getD 0 + ((s.cal.active.map (·.interval)).getD 0) * 86400) max32
    entry := s.logEntry j
    logSlot := s.nextLogSlot
    writes := []
    written := 0
    again := false }

/-- The pending-inbound entry a GROSS-IN adds (R119, R135). -/
def Running.inbound (r : Running) (c : Capture) : Inbound :=
  { identity := c.identity.getD 0, serial := r.serial, gross := c.gross, time := r.time.getD 0,
    classCode := c.check.classCode }

/-- The pending change of a ticket job (R112, R135). -/
def State.ticketPending (s : State) (r : Running) (c : Capture) : List Write :=
  match c.kind with
  | .grossIn => (r.recNo.map fun n => Write.pending n (.entry (r.inbound c))).toList
  | .tareOut =>
    (s.tku.pending.filter fun p => c.pendingRec == some p.recNo).map fun p =>
      .pending p.recNo (.removed p.inbound r.serial)
  | .storedNet => []
  | .tareRefresh => []
  | .spot => []

/-- The pending record numbers a list of writes touches. -/
def pendingNumbers (ws : List Write) : List Nat :=
  ws.filterMap fun w =>
    match w with
    | .pending n _ => some n
    | _ => none

/-- A serial beyond the last issued one. -/
def State.beyondIssued (s : State) (n : Nat) : Bool := (s.tku.serials.map fun t => decide (t.issued < n)).getD false

/-- The verification a close gives a deck (R179), none for a deck with no points. -/
def DeckResult.standing? (r : DeckResult) (expiry : Nat) : Option Standing :=
  match r.verdict with
  | .pass => some (.verified expiry)
  | .fail => some .failed
  | .none => none

/-- The writes of a job, in order (R135, R145, R166). -/
def State.jobWrites (s : State) (j : Job) (r : Running) : List Write :=
  match j with
  | .ticket c =>
    let own := s.ticketPending r c
    s.reconcileWrites s.beyondIssued (pendingNumbers own) ++ own ++ [.serial r.serial]
  | .close c =>
    s.reconcileWrites s.beyondIssued []
      ++ c.decks.filterMap (fun d => (d.standing? r.expiry).map (.verif d.deck)) ++ [.serial r.serial]
  | .commit =>
    (r.entry.map (.log r.logSlot)).toList ++ [.set s.cal.working]
      ++ (changedDecks s.cal.working s.cal.active).map (fun d => .verif d .unverified)
      ++ [.counter { counter := s.cal.counter + 1, code := r.code }]
  | .logErase =>
    (r.entry.map (.log r.logSlot)).toList ++ [.counter { counter := s.cal.counter + 1, code := r.code }]
  | .restore v =>
    (r.entry.map (.log r.logSlot)).toList
      ++ s.reconcileWrites (fun n => decide (v < n) || s.beyondIssued n) []
      ++ [.serial v, .ack v, .counter { counter := s.cal.counter + 1, code := r.code }]
  | .ack v => [.ack v]
  | .housekeeping ns => ns.map fun n => .pending n .empty

/-- A job begun: its values fixed and its writes formed (R134). -/
def State.begun (s : State) (j : Job) : Running :=
  let r := s.fixed j
  { r with writes := s.jobWrites j r }

/-- The front job is begun where none is being written (R133). -/
def State.beginNext (s : State) : State :=
  match s.mst.running, s.mst.jobs with
  | none, j :: _ => { s with mst := { s.mst with running := some (s.begun j) } }
  | _, _ => s

/-- A job accepted joins the rear of the queue, and is begun at once on an empty queue (R133). -/
def State.submit (s : State) (j : Job) : State :=
  State.beginNext { s with mst := { s.mst with jobs := s.mst.jobs ++ [j] } }

/-! ### Writing records (R132) -/

/-- One record of a numbered kind changed. -/
def modRec {α : Type} {n : Nat} (v : Vector α n) (k : Nat) (f : α → α) : Vector α n :=
  match v[k]? with
  | some x => v.setIfInBounds k (f x)
  | none => v

/-- The store after a record write that left the record as told: `.new` for one that reads back equal. -/
def Store.lay (t : Store) (left : Left) : Write → Store
  | .set m => { t with set := recAfter setBytes left t.set m }
  | .counter c => { t with counter := recAfter counterBytes left t.counter c }
  | .log k e => { t with log := modRec t.log k fun old => recAfter logBytes left old (some e) }
  | .verif d v => { t with verif := modRec t.verif d fun old => recAfter standingBytes left old v }
  | .serial n => { t with serial := recAfter serialBytes left t.serial n }
  | .ack n => { t with ack := recAfter serialBytes left t.ack n }
  | .pending k p => { t with pending := modRec t.pending k fun old => recAfter pendingBytes left old p }

/-- The record kind a write names, with the slot, deck or record number where the kind has several (R137). -/
def Write.recKind : Write → RecKind × Option Nat
  | .set _ => (.set, none)
  | .counter _ => (.counter, none)
  | .log k _ => (.log, some k)
  | .verif d _ => (.verification, some d)
  | .serial _ => (.serial, none)
  | .ack _ => (.acknowledged, none)
  | .pending k _ => (.pending, some k)

/-! ### The slot outcome (R70) -/

/-- The end of the ticket job of slot `t` as the slot controller takes it; it applies only to a slot still ISSUING, as
no other job of a slot can be queued before this one has ended (R105). -/
def State.slotOutcome (s : State) (t : SlotId) (completed : Bool) : State :=
  let v := s.slot t
  if v.state = .issuing then
    if !s.hasAxles t then s.setSlot t freeSlot
    else if completed then s.setSlot t { v with state := .leaving }
    else s.setSlot t { v with state := if v.quiet then .positioned else .moving }
  else s

/-! ### Completions -/

/-- The issued serial becomes `n` (R115, R179). -/
def State.issue (s : State) (n : Nat) : State :=
  { s with tku := { s.tku with serials := s.tku.serials.map fun t => { t with issued := n } } }

/-- A record enters the ring unsent, after every record held (R115, R123, R179). -/
def State.ringAdd (s : State) (r : RingRec) : State :=
  { s with tku := { s.tku with ring := s.tku.ring ++ [{ record := r, sent := false }] } }

/-- The working copy of the pending table after a ticket job (R115). -/
def State.pendingAfter (s : State) (r : Running) (c : Capture) : State :=
  match c.kind with
  | .grossIn =>
    match r.recNo with
    | some n => { s with tku := { s.tku with pending := s.tku.pending ++ [{ inbound := r.inbound c, recNo := n }] } }
    | none => s
  | .tareOut =>
    { s with tku := { s.tku with pending := s.tku.pending.filter fun p => c.pendingRec != some p.recNo } }
  | .storedNet => s
  | .tareRefresh => s
  | .spot => s

/-- The stored tare a TARE-REFRESH leaves in the permit entry of its capture (R121). -/
def State.tareAfter (s : State) (r : Running) (c : Capture) : State :=
  match c.kind, c.permit, c.identity with
  | .tareRefresh, some i, some who =>
    match s.slc.permits[i]? with
    | some p =>
      if p.valid ∧ p.identity = who then
        s.putPermit i { p with tare := some (c.gross.toNat, r.time.getD 0) }
      else s
    | none => s
  | _, _, _ => s

/-- The WEIGH record of a ticket job (R117). -/
def Running.weigh (r : Running) (c : Capture) : WeighRec :=
  { serial := r.serial, time := r.time.getD 0, counter := r.counter, code := r.code, capture := c }

/-- The AUDIT record of a close job (R178). -/
def Running.audit (r : Running) (c : CloseCapture) : AuditRec :=
  { serial := r.serial, time := r.time.getD 0, counter := r.counter, code := r.code, expiry := r.expiry,
    capture := c }

/-- A ticket job completed (R115). -/
def State.ticketDone (s : State) (r : Running) (c : Capture) : State :=
  ((((s.issue r.serial).pendingAfter r c).ringAdd (.weigh (r.weigh c))).tareAfter r c).slotOutcome c.slot true

/-- A deck given a standing, its lapse mark cleared (R182, R183). -/
def State.giveStanding (s : State) (d : Nat) (v : Standing) : State :=
  { s with aud := { s.aud with standings := s.aud.standings.set d v, lapsed := s.aud.lapsed.set d false } }

/-- The standings a close gives (R179). -/
def State.closeStandings (s : State) (r : Running) (c : CloseCapture) : State :=
  c.decks.foldl (fun s d =>
    match d.standing? r.expiry with
    | some v => s.giveStanding d.deck v
    | none => s) s

/-- Every deck claimed AUDIT is released, and offered to slots whose axles stand on it (R66, R75). -/
def State.releaseAudit (s : State) : State :=
  State.offerDecks { s with slc := { s.slc with claims := s.slc.claims.map fun c => if c = .audit then .none else c } }

/-- The run becomes CLOSED, and its lists and its timer are dropped (R168). -/
def State.closeRun (s : State) : State :=
  { s with aud := { s.aud with run := .closed, decks := [], traffic := [], points := [], timer := none } }

/-- A close job completed (R179). -/
def State.closeDone (s : State) (r : Running) (c : CloseCapture) : State :=
  let s1 := ((s.issue r.serial).closeStandings r c).ringAdd (.audit (r.audit c))
  if s1.aud.run = .closing then s1.releaseAudit.closeRun else s1

/-- A record of the ring after every serial up to `v` is acknowledged (R126). -/
def RingSlot.acked (v : Nat) (x : RingSlot) : Option RingSlot :=
  match x.record with
  | .weigh r => if r.serial ≤ v then none else some x
  | .audit r => if r.serial ≤ v then none else some x
  | .void a b => if b ≤ v then none else if a ≤ v then some { x with record := .void (v + 1) b } else some x

/-- A held acknowledgement is handed to the store (R126). -/
def State.submitHeld (s : State) : State :=
  match s.tku.heldAck with
  | some v => State.submit { s with tku := { s.tku with heldAck := none } } (.ack v)
  | none => s

/-- An ACK job completed (R126). -/
def State.ackDone (s : State) (v : Nat) : State :=
  State.submitHeld { s with tku := { s.tku with
    serials := s.tku.serials.map fun t => { t with acked := v }
    ring := s.tku.ring.filterMap (RingSlot.acked v) } }

/-- A HOUSEKEEPING job completed (R120). -/
def State.sweepDone (s : State) (ns : List Nat) : State :=
  let gone := s.tku.pending.filter fun p => ns.contains p.recNo
  gone.foldl (fun s p => s.raise (.pendingExpired p.inbound))
    { s with tku := { s.tku with pending := s.tku.pending.filter fun p => !ns.contains p.recNo } }

/-- The counter rises to the job's value and its log entry joins the log, unread (R160, R162, R166). -/
def State.countEvent (s : State) (r : Running) (log : List LogItem) : State :=
  match r.entry with
  | some e =>
    { s with cal := { s.cal with counter := e.counter, log := log ++ [{ entry := e, read := false }] },
             mst := { s.mst with newestSlot := some r.logSlot } }
  | none => s

/-- A LOG-ERASE job completed (R164). -/
def State.eraseDone (s : State) (r : Running) : State :=
  let s1 := s.countEvent r []
  s1.raise (.eraseDone s1.cal.counter)

/-- The working-copy entry a restored store record makes (R145, R166). -/
def restoredEntry (q : Rec PendingRec × Nat) : Option PendingEntry :=
  match recGood pendingBytes q.1 with
  | some (.entry i) => some { inbound := i, recNo := q.2 }
  | _ => none

/-- An entry put at its place in first-pass serial order (R145). -/
def insertPending (p : PendingEntry) : List PendingEntry → List PendingEntry
  | [] => [p]
  | q :: rest => if q.inbound.serial ≤ p.inbound.serial then q :: insertPending p rest else p :: q :: rest

/-- The pending record of an entry was written EMPTY. -/
def State.emptied (s : State) (p : PendingEntry) : Bool :=
  (s.mst.store.pending[p.recNo]?.bind (recGood pendingBytes)) == some .empty

/-- The pending working copy after a SERIAL-RESTORE (R166, step 5). `lost` says the part was in SERIAL_LOST. -/
def State.pendingRestored (s : State) (lost : Bool) : State :=
  let held := s.tku.pending
  let kept := held.filter fun p => !s.emptied p
  let back := if lost then
      (s.mst.store.pending.toList.zipIdx.filterMap restoredEntry).filter fun p =>
        !(held.any fun q => q.recNo == p.recNo)
    else []
  (held.filter s.emptied).foldl
    (fun s p => s.raise (.pendingDropped p.recNo (some p.inbound.identity) (some p.inbound.serial)))
    { s with tku := { s.tku with pending := back.foldl (fun l p => insertPending p l) kept } }

/-- A SERIAL-RESTORE job completed (R166). -/
def State.restoreDone (s : State) (r : Running) (v : Nat) : State :=
  let s1 := s.countEvent r s.cal.log
  let s2 := { s1 with tku := { s1.tku with
    serials := some { issued := v, acked := v }
    ring := s1.tku.ring.filter fun x =>
      match x.record with
      | .void _ b => decide (v < b)
      | _ => false } }
  let s3 := s2.pendingRestored s.serialLost
  s3.raise (.restoreDone s3.cal.counter v)

/-! ### A commit's completion (R160) -/

/-- A cell with the volatile part of power-up (R8). -/
def freshCell (c : CellConst) : Cell :=
  { const := c, entry := .notReplied, last := none, mass := none, window := [], fault := none, clearing := 0,
    misses := 0, temperature := none, excitation := none, drift := none, flags := Vector.replicate 12 false }

/-- The cell table rebuilt from a set, volatile parts carried over by node address (R9). -/
def rebuildCells (old : List Cell) (m : MetroSet) : List Cell :=
  m.cellList.map fun c =>
    match old.find? fun k => k.const.node == c.node with
    | some k => { k with const := c }
    | none => freshCell c

/-- The FAULT a set gives a deck it maps no cell to (R25). -/
def setFault (m : MetroSet) (d : Nat) : Option DeckFault :=
  if m.cellList.any fun c => c.deck == d then none else some .uncalibrated

/-- The record of a changed deck (R42), before its windows restart. -/
def Deck.changed (lack : Option DeckFault) (k : Deck) : Deck :=
  { k with zero := none, zeroStatus := .stale, interval := none, reportMark := true, scanLost := true,
           fault := if lack.isSome then lack else if k.fault = some .cell then some .cell else none }

/-- The deck records of a new set: changed decks, decks added by a raised N, the rest kept (R42). -/
def newDecks (old : List Deck) (m : MetroSet) (changed : List Nat) : List Deck :=
  (List.range m.n).map fun d =>
    match old[d]? with
    | some k => if changed.contains d then k.changed (setFault m d) else k
    | none => { freshDeck (setFault m d) with scanLost := true }

/-- The deck count changes to the set's: strays, last-crossing records and claims go (R64, R65), a last reported deck
beyond the count gives way to deck 5, after which every search begins at deck 0 (R194). -/
def State.newCount (s : State) (n : Nat) : State :=
  if s.decks.length = n then s
  else
    { s with
      axt := { s.axt with line := s.axt.line.filter fun x => !x.isStray, last := Vector.replicate 7 none }
      slc := { s.slc with claims := List.replicate n .none }
      gpt := { s.gpt with lastReported := if n ≤ s.gpt.lastReported then 5 else s.gpt.lastReported } }

/-- The standings of a new set: changed decks UNVERIFIED with their lapse marks clear (R160, R182, R183). -/
def State.newStandings (s : State) (n : Nat) (changed : List Nat) : State :=
  { s with aud := { s.aud with
    standings := (List.range n).map fun d => if changed.contains d then .unverified else s.standingOf d
    lapsed := (List.range n).map fun d => if changed.contains d then false else (s.aud.lapsed[d]?).getD false } }

/-- A COMMIT job completed (R160). -/
def State.commitDone (s : State) (r : Running) : State :=
  let m := s.cal.working
  let changed := changedDecks m s.cal.active
  let s1 := s.countEvent r s.cal.log
  let s2 := State.newCount { s1 with cal := { s1.cal with active := some m }, cells := rebuildCells s.cells m } m.n
  let s3 := changed.foldl State.restart { s2 with decks := newDecks s.decks m changed }
  let s4 := s3.newStandings m.n changed
  let s5 := { s4 with slc := { s4.slc with commitMark := false } }
  s5.raise (.commitDone s5.cal.counter r.code changed)

/-- COMPLETED, as the originator of the job takes it (R136). -/
def State.completed (s : State) (j : Job) (r : Running) : State :=
  match j with
  | .ticket c => s.ticketDone r c
  | .close c => s.closeDone r c
  | .commit => s.commitDone r
  | .logErase => s.eraseDone r
  | .restore v => s.restoreDone r v
  | .ack v => s.ackDone v
  | .housekeeping ns => s.sweepDone ns

/-- FAILED, as the originator of the job takes it (R116, R120, R126, R161, R164, R166, R180). What the queue held for
the job (its reservation, its GROSS-IN in flight, its in-flight marks) ends with the job. -/
def State.failed (s : State) (j : Job) : State :=
  match j with
  | .ticket c => s.slotOutcome c.slot false
  | .close _ => if s.aud.run = .closing then { s with aud := { s.aud with run := .opened } } else s
  | .commit => { s with slc := { s.slc with commitMark := false } }
  | .logErase => s
  | .restore _ => s
  | .ack _ => { s with tku := { s.tku with heldAck := none } }
  | .housekeeping _ => s

/-! ### Ending a job (R136, R137) -/

/-- A job whose last write has been written: out of the queue, its completion taken, the next job begun (R136). -/
def State.completeJob (s : State) (j : Job) (r : Running) : State :=
  (State.completed { s with mst := { s.mst with jobs := s.mst.jobs.tail, running := none } } j r).beginNext

/-- A job whose write `w` read back wrong twice, and every job queued behind it (R137). -/
def State.failJobs (s : State) (j : Job) (r : Running) (w : Write) : State :=
  let s1 := State.failed { s with mst := { s.mst with jobs := [], running := none } } j
  let s2 := State.raise { s1 with mst := { s1.mst with storeFault := true } }
    (.storeFault j.origin w.recKind.1 w.recKind.2 r.written)
  s.mst.jobs.tail.foldl State.failed s2

/-- The end of a record write (R132). -/
def State.writeEnds (s : State) (readBack : ReadBack) (j : Job) (r : Running) (w : Write) (rest : List Write) : State :=
  match readBack with
  | .equal =>
    let s1 := { s with mst := { s.mst with store := s.mst.store.lay .new w } }
    if rest.isEmpty then State.finish s (s1.completeJob j r)
    else { s1 with mst := { s1.mst with
      running := some { r with writes := rest, written := r.written + 1, again := false } } }
  | .differs left =>
    if r.again then
      State.finish s (State.failJobs { s with mst := { s.mst with store := s.mst.store.lay left w } } j r w)
    else { s with mst := { s.mst with running := some { r with again := true } } }

/-- RECORD_WRITE_DONE (R132). -/
def execRecordWriteDone (readBack : ReadBack) (s : State) : Host.Outcome State Fault Refusal :=
  whenPowered s fun s =>
    match s.mst.running, s.mst.jobs with
    | some r, j :: _ =>
      match r.writes with
      | w :: rest => s.writeEnds readBack j r w rest
      | [] => s
    | _, _ => s

end Sys2Proof.Machine
end

