-- ==== Sys2Proof/Machine/Tickets.lean ====
section
/-! DEFINITION. The ticket unit (06_tickets.md): finalizations, acknowledgements, resending, the pending sweep, and the
rows that reach them. -/

namespace Sys2Proof.Machine

/-! ### Kinds (R104, R106) -/

/-- The kind a FINALIZE names: none for a code that names no kind, `some none` for AUTO (R201). -/
def kindOf (b : Byte) : Option (Option TicketKind) :=
  match b.toNat with
  | 0 => some (some .grossIn)
  | 1 => some (some .tareOut)
  | 2 => some (some .storedNet)
  | 3 => some (some .tareRefresh)
  | 4 => some (some .spot)
  | 5 => some none
  | _ => none

/-- The slot's usable pending entry (R119). -/
def State.slotPending (s : State) (t : SlotId) : Option PendingEntry := (s.slot t).identity.bind s.usablePending

/-- The slot's permit entry (R77). -/
def State.slotPermit (s : State) (t : SlotId) : Option Permit := (s.slot t).permit.bind (s.slc.permits[·]?)

/-- A tare of that time is within the tare validity at time `now` (R121). -/
def State.tareValid (s : State) (now time : Nat) : Bool :=
  decide (time ≤ now) && decide (now - time ≤ s.tareValiditySeconds)

/-- The slot's stored tare is one that AUTO counts (R106, case 2). -/
def State.tareUsable (s : State) (t : SlotId) : Bool :=
  match (s.slotPermit t).bind (·.tare), s.gpt.time with
  | some tare, some now => s.tareValid now tare.2
  | _, _ => false

/-- AUTO resolved (R106). -/
def State.resolveAuto (s : State) (t : SlotId) : TicketKind :=
  if (s.slotPending t).isSome then .tareOut
  else if s.tareUsable t then .storedNet
  else if (s.slot t).identity.isSome then .grossIn
  else .spot

/-! ### Conditions (R107 to R111) -/

/-- R107. -/
def State.partReasons (s : State) (t : SlotId) : List (Reason × Bool) :=
  let v := s.slot t
  [(.timeUnset, s.gpt.time.isNone), (.barred, v.barred), (.spanBreach, v.spanBreach), (.intruded, v.intruded),
   (.ringFull, s.ringFree == 0)]

/-- A deck counts as not verified (R108, R183). -/
def State.notVerified (s : State) (d : Nat) : Bool :=
  match s.standingOf d with
  | .verified expiry => (s.gpt.time.map fun now => decide (expiry ≤ now)).getD false
  | .unverified => true
  | .failed => true

/-- R108, each deck of the run judged from its record. -/
def State.deckReasons (s : State) (run : List Nat) : List (Reason × Bool) :=
  let any := fun (p : Nat → Deck → Bool) => run.any fun d => (s.decks[d]?.map (p d)).getD false
  [(.deckMoving, any fun _ k => k.motion != .stable),
   (.deckCondition, any fun d k => s.condition d k != .normal),
   (.zeroStale, any fun _ k => k.zeroStatus == .stale),
   (.deckSuspect, run.any s.deckSuspect),
   (.unverified, run.any s.notVerified)]

/-- The most a run may carry: the sum of its decks' Max, and 9e (R109, R110). -/
def State.runLimit (s : State) (run : List Nat) : Int := (run.map s.deckMax).sum + 9 * s.division

/-- R109. -/
def State.grossReasons (s : State) (run : List Nat) (gross : Option Int) : List (Reason × Bool) :=
  [(.minGross, (gross.map fun g => decide (g < 20 * s.division)).getD true),
   (.overCapacity, (gross.map fun g => decide (s.runLimit run < g)).getD false)]

/-- The net of two masses would be negative; not tested where the check's gross is absent (R110). -/
def netNegative (loaded empty : Option Int) : Bool :=
  match loaded, empty with
  | some a, some b => decide (a - b < 0)
  | _, _ => false

/-- The conditions of each kind (R110). With no active set TARE_DIVISION and FIRST_PASS are judged by a division and a Max
of 0, and NO_TARE does not stand beside NO_PERMIT for a STORED-NET slot with no permit index, which are the model's choices
(notes/assumptions/60, 62). -/
def State.kindReasons (s : State) (t : SlotId) (run : List Nat) (gross : Option Int) :
    TicketKind → List (Reason × Bool)
  | .grossIn =>
    let who := (s.slot t).identity
    [(.noIdentity, who.isNone),
     (.pendingExists, (who.map fun i => s.tku.pending.any (·.inbound.identity == i) || s.grossInFlight.contains i).getD
       false),
     (.pendingFull, decide (48 ≤ s.tku.pending.length + s.grossInFlight.length))]
  | .tareOut =>
    let first := (s.slotPending t).map (·.inbound.gross)
    [(.negativeNet, netNegative first gross),
     (.firstPass, (first.map fun g => g % s.division != 0 || decide (s.runLimit run < g)).getD false)]
  | .storedNet =>
    let permit := s.slotPermit t
    let tare := permit.bind (·.tare)
    [(.noPermit, permit.isNone),
     (.noTare, permit.isSome && tare.isNone),
     (.tareExpired, match tare, s.gpt.time with
       | some p, some now => !s.tareValid now p.2
       | _, _ => false),
     (.tareDivision, (tare.map fun p => (p.1 : Int) % s.division != 0).getD false),
     (.negativeNet, netNegative gross (tare.map fun p => (p.1 : Int)))]
  | .tareRefresh => [(.noPermit, (s.slot t).permit.isNone)]
  | .spot => []

/-- A kind the hold-on-over ground refuses (R111). -/
def heldKind : TicketKind → Bool
  | .grossIn => true
  | .storedNet => true
  | .spot => true
  | .tareOut => false
  | .tareRefresh => false

/-- Every condition of R107 to R111 that fails for the slot, judged on check `c`. -/
def State.finalizeReasons (s : State) (t : SlotId) (k : TicketKind) (c : Check) : List Reason :=
  let run := s.runOf t
  reasonsWhere (s.partReasons t ++ s.deckReasons run ++ s.grossReasons run c.gross ++ s.kindReasons t run c.gross k
    ++ [(.holdOnOver, heldKind k && c.overall == .over && c.hold)])

/-! ### Capture and acceptance (R112, R113, R118) -/

/-- Gross, tare, net and tare source by kind (R118), `g` being the check gross. -/
def State.weights (s : State) (t : SlotId) (g : Int) : TicketKind → Int × Option Int × Option Int × TareSource
  | .tareOut =>
    match s.slotPending t with
    | some p => (p.inbound.gross, some g, some (p.inbound.gross - g), .pass p.inbound.serial)
    | none => (g, none, none, .none)
  | .storedNet =>
    match (s.slotPermit t).bind (·.tare) with
    | some tare => (g, some tare.1, some (g - tare.1), .stored tare.2)
    | none => (g, none, none, .none)
  | .grossIn => (g, none, none, .none)
  | .tareRefresh => (g, none, none, .none)
  | .spot => (g, none, none, .none)

/-- The capture (R113). -/
def State.capture (s : State) (t : SlotId) (k : TicketKind) (c : Check) : Capture :=
  let v := s.slot t
  let run := s.runOf t
  let w := s.weights t (c.gross.getD 0) k
  { kind := k
    slot := t
    identity := v.identity
    permit := v.permit
    decks := run.map fun d => (d, (s.decks[d]?.bind s.roundedGross).getD 0)
    check := c
    gross := w.1
    tare := w.2.1
    net := w.2.2.1
    source := w.2.2.2
    warn := run.any s.deckWarn
    tolerated := c.groups.any (·.verdict == .tolerated) || c.grossVerdict == some .tolerated
    pendingRec := if k = .tareOut then (s.slotPending t).map (·.recNo) else none }

/-- RING_LOW as the unreserved free count falls from `before` (R127). -/
def State.judgeRingLow (s : State) (before : Nat) : State :=
  if before = s.ringLow + 1 ∧ s.ringFree = s.ringLow then s.raise (.ringLow s.ringFree) else s

/-- Accepting a finalization (R112). -/
def State.accept (s : State) (t : SlotId) (k : TicketKind) (c : Check) : State :=
  let s1 := s.submit (.ticket (s.capture t k c))
  let s2 := s1.setSlot t { s1.slot t with state := .issuing, overHeld := false }
  s2.judgeRingLow s.ringFree

/-- A FINALIZE of a POSITIONED slot judged on its new check: lines 7 to 9 of R105. -/
def State.judgeFinalize (s : State) (t : SlotId) (asked : Option TicketKind) : Answered :=
  let c := s.computeCheck t
  let s1 := s.refreshCheck t
  let k := asked.getD (s1.resolveAuto t)
  let rs := s1.finalizeReasons t k c
  if k = .tareOut ∧ s1.slotPending t = none then (s1, .notFound, [])
  else if rs ≠ [] then
    let s2 := if rs.contains .holdOnOver then s1.setSlot t { s1.slot t with overHeld := true } else s1
    (s2, .notReady, reasonSet rs)
  else (s1.accept t k c, .accepted, [slotCode t, kindCode k])

/-- What refuses a FINALIZE of slot `t` whose slot and kind are known, before its conditions are judged: lines 2 to 6 of
R105. -/
def State.finalizeBar (s : State) (t : SlotId) : Option (Status × List Byte) :=
  if s.cal.mode = .cal then some (.wrongMode, [])
  else if s.mst.storeFault then some (.storeFault, [])
  else
    match s.tku.serials with
    | none => some (.serialLost, [])
    | some n =>
      if max32 ≤ n.issued then some (.range, [])
      else if (s.slot t).state = .issuing ∨ s.jobQueued (.slot t) = true then some (.busy, [])
      else if (s.slot t).state ≠ .positioned then some (.notReady, reasonSet [.slotState])
      else none

/-- A FINALIZE judged from line 2 of R105. A POSITIONED slot has its check computed as the request is taken, and a refusal
at any line leaves it CURRENT (R102). -/
def State.finalize (s : State) (t : SlotId) (asked : Option TicketKind) : Answered :=
  match s.finalizeBar t with
  | some a => if (s.slot t).state = .positioned then (State.finish s (s.refreshCheck t), a) else (s, a)
  | none =>
    let a := s.judgeFinalize t asked
    (State.finish s a.1, a.2)

/-- FINALIZE (R104, R105). Where slot number and kind are both unknown, the slot number is judged first
(notes/assumptions/4); where the kind is unknown no check is computed, also for a POSITIONED slot (notes/assumptions/61). -/
def execFinalize (tag n kind : Byte) (s : State) : Host.Outcome State Fault Refusal :=
  execute { tag := tag, kind := reqFinalize, args := [n, kind] } s fun s =>
    match slotOf n, kindOf kind with
    | none, _ => refuse s .badIndex
    | some _, none => refuse s .badValue
    | some t, some asked => s.finalize t asked

/-- A PRINT key from a lane, taken as FINALIZE (s, AUTO) with no answer (R104). -/
def State.takePrint (s : State) (l : Lane) : State :=
  match s.laneSlot l with
  | some t => (s.finalize t none).1
  | none => s

/-! ### Acknowledging and resending (R124, R125) -/

/-- The value an ACK job queued stands for; a SERIAL-RESTORE counts as one (R125, R165). -/
def Job.ackValue : Job → Option Nat
  | .ack v => some v
  | .restore v => some v
  | _ => none

/-- `v` is no greater than the value of an ACK job queued or held (R125). -/
def State.ackCovered (s : State) (v : Nat) : Bool :=
  (s.mst.jobs.filterMap Job.ackValue ++ s.tku.heldAck.toList).any (v ≤ ·)

/-- The front job is an ACK job being written. -/
def State.ackWriting (s : State) : Bool :=
  s.mst.running.isSome && ((s.mst.jobs.head?.map fun j => j.origin == .ack).getD false)

/-- An acknowledgement accepted (R125): the queued job's value replaced, or the value held, or a job handed in. -/
def State.acceptAck (s : State) (v : Nat) : State :=
  if s.ackWriting then { s with tku := { s.tku with heldAck := some v } }
  else if s.jobQueued .ack then
    { s with mst := { s.mst with jobs := s.mst.jobs.map fun j => if j.origin = .ack then .ack v else j } }
  else s.submit (.ack v)

/-- ACK_TICKETS (R125). -/
def execAckTickets (tag : Byte) (serial : BitVec 32) (s : State) : Host.Outcome State Fault Refusal :=
  execute { tag := tag, kind := reqAckTickets, args := bytesOf 4 serial.toNat } s fun s =>
    match s.tku.serials with
    | none => refuse s .range
    | some n =>
      let v := serial.toNat
      if n.issued < v then refuse s .range
      else if v ≤ n.acked ∨ s.ackCovered v = true then (s, .ok, [])
      else if s.mst.storeFault then refuse s .storeFault
      else (s.acceptAck v, .accepted, [])

/-- A record that RESEND-TICKETS (v) re-marks (R124). -/
def RingRec.reaches (v : Nat) : RingRec → Bool
  | .weigh r => decide (v ≤ r.serial)
  | .audit r => decide (v ≤ r.serial)
  | .void _ b => decide (v ≤ b)

/-- RESEND_TICKETS (R124). -/
def execResendTickets (tag : Byte) (serial : BitVec 32) (s : State) : Host.Outcome State Fault Refusal :=
  execute { tag := tag, kind := reqResendTickets, args := bytesOf 4 serial.toNat } s fun s =>
    let v := serial.toNat
    let n := (s.tku.ring.filter fun x => x.record.reaches v).length
    ({ s with tku := { s.tku with
        ring := s.tku.ring.map fun x => if x.record.reaches v then { x with sent := false } else x } },
      .ok, bytesOf 4 n ++ opt32 (s.tku.serials.map (·.acked)) ++ opt32 (s.tku.serials.map (·.issued)))

/-! ### The pending table (R119, R120) -/

/-- An entry the sweep takes at time `now` (R120). -/
def State.sweepTakes (s : State) (now : Nat) (p : PendingEntry) : Bool :=
  decide (s.pendingExpirySeconds < now - p.inbound.time) && !s.inFlight p
    && s.slc.slot0.identity != some p.inbound.identity && s.slc.slot1.identity != some p.inbound.identity

/-- The sweep of the pending table (R120). -/
def State.sweepPending (s : State) : State :=
  match s.gpt.time with
  | none => s
  | some now =>
    let taken := s.tku.pending.filter (s.sweepTakes now)
    let restoring := s.mst.jobs.any fun j => match j with
      | .restore _ => true
      | _ => false
    if s.jobQueued .housekeeping || restoring || s.mst.storeFault || taken.isEmpty then s
    else s.submit (.housekeeping (taken.map (·.recNo)))

/-- PENDING_SWEEP (R120). -/
def execPendingSweep (s : State) : Host.Outcome State Fault Refusal :=
  whenPowered s fun s =>
    if s.tku.sweep.isSome then State.sweepPending { s with tku := { s.tku with sweep := some 60000 } } else s

/-- A PENDING entry as answered (R119). -/
def State.pendingEntryBytes (s : State) (p : PendingEntry) : List Byte :=
  inboundBytes p.inbound ++ [marksByte [s.inFlight p]]

/-- READ_ENTRY_PENDING (R119); an empty entry has no fields (notes/assumptions/30). -/
def execReadEntryPending (tag : Byte) (index : BitVec 16) (s : State) : Host.Outcome State Fault Refusal :=
  execute (readRequest tag tabPending index) s fun s =>
    if 47 < index.toNat then refuse s .badIndex
    else (s, .ok, ((s.tku.pending[index.toNat]?).map s.pendingEntryBytes).getD [])

end Sys2Proof.Machine
end

