-- ==== Sys2Proof/Machine/Audits.lean ====
section
/-! DEFINITION. The audit unit (09_verification_audits.md): the run, its points, closing, and the standings' lapse. -/

namespace Sys2Proof.Machine

/-! ### Opening (R66, R169) -/

/-- The first condition an audit claim of deck `d` fails (R66). -/
def State.claimFails (s : State) (d : Nat) : Option Reason :=
  if s.claimOf d ≠ .none then some .claimed
  else if s.axleCount d ≠ 0 then some .axles
  else if s.strayCount d ≠ 0 then some .strays
  else if (s.decks[d]?.map (·.untracked)).getD false then some .untracked
  else if s.slc.commitMark then some .commit
  else none

/-- The failing decks of a list with their reasons. -/
def State.claimFailures (s : State) (ds : List Nat) : List (Nat × Reason) :=
  ds.filterMap fun d => (s.claimFails d).map (d, ·)

/-- A refused claim as answered: each failing deck with its reason (R169, notes/assumptions/17). -/
def failureBytes (fs : List (Nat × Reason)) : List Byte :=
  listBytes (fun f => bytesOf 1 f.1 ++ nameBytes f.2.name) fs

/-- The run opened on the decks of a list (R169). -/
def State.openRun (s : State) (ds : List Nat) : State :=
  let held := (List.range s.decks.length).filter ds.contains
  { s with
    aud := { s.aud with run := .opened, decks := held, traffic := held.map fun _ => 0, points := [], timer := none }
    slc := { s.slc with claims := s.slc.claims.mapIdx fun d c => if ds.contains d then .audit else c } }

/-- AUDIT_OPEN (R169). A list wrong in both ways of line 1 is answered BAD_INDEX (notes/assumptions/4). -/
def execAuditOpen (tag : Byte) (decks : List Byte) (s : State) : Host.Outcome State Fault Refusal :=
  execute { tag := tag, kind := reqAuditOpen, args := BitVec.ofNat 8 decks.length :: decks } s fun s =>
    let ds := decks.map (·.toNat)
    if s.cal.active.isNone ∨ ds.any (s.decks.length ≤ ·) = true then refuse s .badIndex
    else if ds = [] ∨ 6 < ds.length ∨ ¬ds.Nodup then refuse s .badValue
    else if s.aud.run ≠ .closed then refuse s .busy
    else if s.claimFailures ds ≠ [] then (s, .notReady, failureBytes (s.claimFailures ds))
    else (State.finish s (s.openRun ds), .ok, [])

/-! ### Points (R171, R173, R174) -/

/-- AUDIT_POINT (R171). -/
def execAuditPoint (tag d : Byte) (nominal : BitVec 32) (position : Byte) (s : State) :
    Host.Outcome State Fault Refusal :=
  execute { tag := tag, kind := reqAuditPoint, args := d :: (bytesOf 4 nominal.toNat ++ [position]) } s fun s =>
    if s.aud.run = .closed then notReady s [.noRun]
    else if s.aud.run = .waiting ∨ s.aud.run = .closing then refuse s .busy
    else if ¬d.toNat ∈ s.aud.decks then refuse s .badIndex
    else if nominal.toInt < 0 ∨ s.deckMax d.toNat < nominal.toInt
        ∨ (s.cellsOf d.toNat).length < position.toNat then refuse s .badValue
    else if 16 ≤ s.aud.points.length then refuse s .full
    else
      ({ s with aud := { s.aud with
          run := .waiting
          timer := some s.pointMs
          points := s.aud.points ++ [{ deck := d.toNat, nominal := nominal.toInt, position := position.toNat,
                                       state := .waiting, indication := none, gross := none, error := none,
                                       mpe := none, verdict := none }] } },
        .ok, bytesOf 1 s.aud.points.length)

/-- A waiting point at its timer's expiry (R173). -/
def Point.expire (e : Int) (p : Point) : Point :=
  if p.state = .waiting then { p with state := .unstable, mpe := some (mpeOf e p.nominal), verdict := some .unstable }
  else p

/-- POINT_TIMER_EXPIRY (R173). -/
def execPointTimerExpiry (s : State) : Host.Outcome State Fault Refusal :=
  whenPowered s fun s =>
    if s.aud.timer.isSome then
      { s with aud := { s.aud with
          run := if s.aud.run = .waiting then .opened else s.aud.run
          timer := none
          points := s.aud.points.map (Point.expire s.division) } }
    else s

/-! ### Verdicts (R175, R177) -/

/-- The indications of a deck's captured cell-position points at one nominal (R175). -/
def eccSet (ps : List Point) (m : Int) : List Int :=
  (ps.filter fun p => p.state == .captured && p.position != 0 && p.nominal == m).filterMap (·.indication)

/-- The spread of a set of indications (R175). -/
def spread (xs : List Int) : Int :=
  match xs.max?, xs.min? with
  | some hi, some lo => hi - lo
  | _, _ => 0

/-- The eccentricity of a deck of those points under division `e` (R175). -/
def eccentricity (e : Int) (ps : List Point) : AuditVerdict :=
  let sets := (ps.map (·.nominal)).filter fun m => decide (2 ≤ (eccSet ps m).length)
  if sets.isEmpty then .none
  else if sets.any fun m => decide (mpeOf e m < spread (eccSet ps m)) then .fail
  else .pass

/-- The conditions a deck's points fail (R177). -/
def auditReasons (e : Int) (ps : List Point) : List AuditReason :=
  reasonsWhere
    [(AuditReason.point, ps.any fun p => p.verdict != some .pass),
     (AuditReason.noZeroPoint, !ps.any (·.nominal == 0)),
     (AuditReason.tooFew, decide ((ps.filter fun p => decide (0 < p.nominal)).length < 2)),
     (AuditReason.eccentricity, eccentricity e ps == .fail)]

/-- The verdict of a deck from its points, with its reasons, eccentricity and traffic (R177, R178). -/
def State.deckResult (s : State) (p : Nat × Nat) : DeckResult :=
  let ps := s.aud.points.filter (·.deck == p.1)
  let rs := auditReasons s.division ps
  { deck := p.1
    verdict := if ps.isEmpty then .none else if rs.isEmpty then .pass else .fail
    reasons := if ps.isEmpty then [] else rs
    ecc := eccentricity s.division ps
    traffic := p.2 }

/-- The results of the run's decks, lowest first. -/
def State.deckResults (s : State) : List DeckResult := (s.aud.decks.zip s.aud.traffic).map s.deckResult

/-! ### Closing and cancelling (R176, R178, R181) -/

/-- The conditions of line 6 of R176. -/
def State.closeReasons (s : State) : List Reason :=
  reasonsWhere [(Reason.noPoints, s.aud.points.isEmpty), (Reason.timeUnset, s.gpt.time.isNone),
    (Reason.ringFull, s.ringFree == 0)]

/-- Accepting AUDIT-CLOSE (R178). -/
def State.acceptClose (s : State) : State :=
  let s1 := s.submit (.close { mode := s.cal.mode, decks := s.deckResults, points := s.aud.points })
  State.judgeRingLow { s1 with aud := { s1.aud with run := .closing } } s.ringFree

/-- AUDIT_CLOSE (R176). -/
def execAuditClose (tag : Byte) (s : State) : Host.Outcome State Fault Refusal :=
  execute { tag := tag, kind := reqAuditClose, args := [] } s fun s =>
    if s.aud.run = .closed then notReady s [.noRun]
    else if s.aud.run = .waiting ∨ s.aud.run = .closing then refuse s .busy
    else if s.mst.storeFault then refuse s .storeFault
    else
      match s.tku.serials with
      | none => refuse s .serialLost
      | some n =>
        if max32 ≤ n.issued then refuse s .range
        else if s.jobQueued .aud then refuse s .busy
        else if s.closeReasons ≠ [] then notReady s s.closeReasons
        else (s.acceptClose, .accepted, [])

/-- AUDIT_CANCEL (R181). -/
def execAuditCancel (tag : Byte) (s : State) : Host.Outcome State Fault Refusal :=
  execute { tag := tag, kind := reqAuditCancel, args := [] } s fun s =>
    match s.aud.run with
    | .closed => notReady s [.noRun]
    | .closing => refuse s .busy
    | .opened => (State.finish s s.releaseAudit.closeRun, .ok, [])
    | .waiting => (State.finish s s.releaseAudit.closeRun, .ok, [])

/-! ### AUDITRUN (R168) -/

/-- The run's entry as answered (R168). A deck's verdict is its verdict byte alone, without the reason set of a FAIL
(notes/assumptions/46), and the traffic counts and the verdicts each stand as a list behind a count byte of their own
(notes/assumptions/63). -/
def State.runBytes (s : State) : List Byte :=
  [runStateCode s.aud.run] ++ listBytes (bytesOf 1) s.aud.decks ++ listBytes (bytesOf 2) s.aud.traffic
    ++ bytesOf 4 s.aud.points.length ++ opt32 (s.aud.timer.map remainingSeconds)
    ++ listBytes (fun r => [auditVerdictCode r.verdict]) s.deckResults

/-- A test point as answered (R171, R172), its fields in the order the model gives them (notes/assumptions/47). -/
def pointBytes (p : Point) : List Byte :=
  bytesOf 1 p.deck ++ massBytes p.nominal ++ bytesOf 1 p.position ++ [pointStateCode p.state] ++ optMass p.indication
    ++ optMass p.gross ++ optMass p.error ++ optMass p.mpe ++ [optCode pointVerdictCode p.verdict]

/-- READ_ENTRY_AUDITRUN (R168). -/
def execReadEntryAuditrun (tag : Byte) (index : BitVec 16) (s : State) : Host.Outcome State Fault Refusal :=
  execute (readRequest tag tabAuditrun index) s fun s =>
    let i := index.toNat
    if 16 < i then refuse s .badIndex
    else if i = 0 then (s, .ok, s.runBytes)
    else (s, .ok, ((s.aud.points[i - 1]?).map pointBytes).getD [])

/-! ### Lapse (R183) -/

/-- Deck `d` at the sweep at time `now`: a lapsed deck whose mark is clear is noticed once. -/
def State.lapseDeck (now : Nat) (s : State) (d : Nat) : State :=
  match s.standingOf d with
  | .verified expiry =>
    if expiry ≤ now ∧ (s.aud.lapsed[d]?).getD true = false then
      State.raise { s with aud := { s.aud with lapsed := s.aud.lapsed.set d true } } (.verificationLapsed d expiry)
    else s
  | .unverified => s
  | .failed => s

/-- VERIFICATION_LAPSED (R183): the audit unit's sweep of the decks. -/
def execVerificationLapsed (s : State) : Host.Outcome State Fault Refusal :=
  whenPowered s fun s =>
    if s.aud.sweep.isSome then
      let s1 := { s with aud := { s.aud with sweep := some 60000 } }
      match s.gpt.time with
      | some now => (List.range s.aud.standings.length).foldl (State.lapseDeck now) s1
      | none => s1
    else s

end Sys2Proof.Machine
end

