-- ==== Sys2Proof/Machine/Calibration.lean ====
section
/-! DEFINITION. The calibration unit (08_calibration.md): the METRO table, the adjustments, COMMIT, LOG-ERASE,
SERIAL-RESTORE, the audit log as read, and the switch. -/

namespace Sys2Proof.Machine

/-! ### The switch (R147) -/

/-- SWITCH_MOVED (R147, R197). -/
def execSwitchMoved (position : Mode) (s : State) : Host.Outcome State Fault Refusal :=
  whenPowered s fun s =>
    if s.cal.switch = position then s
    else State.raise { s with cal := { s.cal with switch := position } } (.switchMoved position s.cal.mode)

/-! ### METRO entries (R149, R152, R199) -/

def bridgeBytes (m : MetroSet) : List Byte := bytesOf 4 m.n ++ massBytes m.e ++ bytesOf 4 m.interval

def breakBytes (b : Nat × Int) : List Byte := massBytes b.1 ++ massBytes b.2

/-- A cell position: all fields 0 where it is empty (notes/assumptions/30). -/
def cellEntryBytes : Option CellConst → List Byte
  | some c => bytesOf 1 c.node ++ bytesOf 1 c.deck ++ sbytesOf 4 c.zero ++ bytesOf 4 c.span ++ bytesOf 4 c.corner
      ++ listBytes breakBytes c.breaks
  | none => List.replicate 15 0#8

/-- Entry `i` of a set, for an index no greater than 38. A deck entry at or above N answers the absent mass
(notes/assumptions/30). -/
def MetroSet.entryBytes (m : MetroSet) (i : Nat) : List Byte :=
  if i = 0 then bridgeBytes m
  else if i ≤ 6 then optMass (m.maxes[i - 1]?.map fun v => (v : Int))
  else cellEntryBytes ((m.cells[i - 7]?).getD none)

/-- A parameter of entry `i` differs from the active set (R152). That a cell position also answers for the parameters of a
node address which only the active set holds, at that position there, is the model's choice (notes/assumptions/57). -/
def State.entryDiffers (s : State) (i : Nat) : Bool :=
  (differences s.cal.working s.cal.active).any fun p => metroIndex s.cal.working s.cal.active p == i

/-- The reasons of R158 that a set fails. BREAKPOINT passes over a cell whose deck has no Max in the set, and DECK_CELLS
counts the cells of each deck number 0 to 5, whatever N is (notes/assumptions/44). -/
def inconsistencies (m : MetroSet) : List Reason :=
  reasonsWhere
    [(Reason.ratio, m.maxes.any fun v => decide (v < 500 * m.e) || decide (10000 * m.e < v)),
     (Reason.cellDeck, m.cellList.any fun c => decide (m.n ≤ c.deck)),
     (Reason.deckCells, (List.range 6).any fun d => decide (8 < (m.cellList.filter fun c => c.deck == d).length)),
     (Reason.breakpoint, m.cellList.any fun c =>
       match c.breaks.getLast?, m.maxes[c.deck]? with
       | some b, some v => decide (v < b.1)
       | _, _ => false)]

/-- What the answer gives beside the bridge entry (R152). -/
def State.bridgeExtra (s : State) : List Byte :=
  wordBytes (setCode s.cal.working) ++ optField 2 (s.activeCode.map wordBytes)
    ++ bytesOf 4 (differences s.cal.working s.cal.active).length ++ reasonSet (inconsistencies s.cal.working)

/-- READ_ENTRY_METRO (R152). -/
def execReadEntryMetro (tag : Byte) (index : BitVec 16) (s : State) : Host.Outcome State Fault Refusal :=
  execute (readRequest tag tabMetro index) s fun s =>
    let i := index.toNat
    if 38 < i then refuse s .badIndex
    else (s, .ok, s.cal.working.entryBytes i ++ [marksByte [s.entryDiffers i]]
      ++ (if i = 0 then s.bridgeExtra else []))

/-! ### METRO writes (R151) -/

/-- The divisions R149 allows. -/
def divisions : List Nat := [1000, 2000, 5000, 10000, 20000, 50000]

/-- Max of each deck after N is written (R151). -/
def resizeMaxes (n : Nat) (maxes : List Nat) : List Nat :=
  (maxes ++ List.replicate n (maxes.getLast?.getD 1000000)).take n

/-- A bridge entry written; none where a value is out of its range. -/
def writeBridge (m : MetroSet) (bs : List Byte) : Option MetroSet :=
  let n := natOf (bs.take 4)
  let e := natOf ((bs.drop 4).take 4)
  let days := natOf (bs.drop 8)
  if 1 ≤ n ∧ n ≤ 6 ∧ divisions.contains e = true ∧ 1 ≤ days ∧ days ≤ 730 then
    some { m with n := n, e := e, interval := days, maxes := resizeMaxes n m.maxes }
  else none

/-- A deck entry written; none where the Max is out of its range. -/
def writeDeck (m : MetroSet) (d : Nat) (bs : List Byte) : Option MetroSet :=
  let v := natOf bs
  if 1000000 ≤ v ∧ v ≤ 100000000 then some { m with maxes := m.maxes.set d v } else none

/-- The breakpoint pairs of a list field. -/
def breaksOf : Nat → List Byte → List (Nat × Int)
  | 0, _ => []
  | k + 1, bs => (natOf (bs.take 4), intOf ((bs.drop 4).take 4)) :: breaksOf k (bs.drop 8)

/-- Breakpoints within their ranges, x rising strictly from above `x0` (R149). -/
def breaksOk : Nat → List (Nat × Int) → Bool
  | _, [] => true
  | x0, (x, e) :: rest =>
    decide (x0 < x) && decide (x ≤ 100000000) && decide (-50000 ≤ e) && decide (e ≤ 50000) && breaksOk x rest

/-- The constants of a non-empty cell entry's contents. -/
def cellOf (bs : List Byte) : CellConst :=
  { node := (bs.getD 0 0).toNat, deck := (bs.getD 1 0).toNat, zero := intOf ((bs.drop 2).take 4),
    span := natOf ((bs.drop 6).take 4), corner := natOf ((bs.drop 10).take 4),
    breaks := breaksOf (bs.getD 14 0).toNat (bs.drop 15) }

/-- A cell's constants within the ranges of R149. -/
def CellConst.inRange (c : CellConst) : Bool :=
  decide (1 ≤ c.node) && decide (c.node ≤ 63) && decide (c.deck ≤ 5)
    && decide (-8388608 ≤ c.zero) && decide (c.zero ≤ 8388607)
    && decide (1 ≤ c.span) && decide (c.span ≤ 16777215)
    && decide (8192 ≤ c.corner) && decide (c.corner ≤ 24576)
    && decide (c.breaks.length ≤ 4) && breaksOk 0 c.breaks

/-- The contents have the form of entry `i` (R199): a cell entry of node address 0 takes any contents (R151). -/
def metroForm (i : Nat) (bs : List Byte) : Bool :=
  if i = 0 then bs.length == 12
  else if i ≤ 6 then bs.length == 4
  else bs.head? == some 0#8 || bs.length == 15 + 8 * (bs.getD 14 0).toNat

/-- The cell position `k` written. -/
def MetroSet.putCell (m : MetroSet) (k : Nat) (c : Option CellConst) : MetroSet :=
  { m with cells := m.cells.setIfInBounds k c }

/-- Another position than `k` holds the node address. -/
def MetroSet.nodeTaken (m : MetroSet) (k node : Nat) : Bool :=
  m.cells.toList.zipIdx.any fun q => q.2 != k && (q.1.map (·.node)) == some node

/-- The working set after a write of entry `i`, or the status that refuses it: the last four lines of R151. -/
def writeMetro (m : MetroSet) (i : Nat) (bs : List Byte) : Except Status MetroSet :=
  if i = 0 then
    match writeBridge m bs with
    | some m' => .ok m'
    | none => .error .badValue
  else if i ≤ 6 then
    if m.n ≤ i - 1 then .error .badIndex
    else
      match writeDeck m (i - 1) bs with
      | some m' => .ok m'
      | none => .error .badValue
  else if bs.head? = some 0#8 then .ok (m.putCell (i - 7) none)
  else if (cellOf bs).inRange = false then .error .badValue
  else if m.nodeTaken (i - 7) (cellOf bs).node then .error .duplicate
  else .ok (m.putCell (i - 7) (some (cellOf bs)))

/-- WRITE_ENTRY_METRO (R151). -/
def execWriteEntryMetro (tag : Byte) (index : BitVec 16) (contents : List Byte) (s : State) :
    Host.Outcome State Fault Refusal :=
  execute (writeRequest tag tabMetro index contents) s fun s =>
    let i := index.toNat
    if 38 < i then refuse s .badIndex
    else if metroForm i contents = false then refuse s .badValue
    else if s.cal.mode = .normal then refuse s .wrongMode
    else if s.commitQueued then refuse s .busy
    else
      match writeMetro s.cal.working i contents with
      | .error st => refuse s st
      | .ok m => ({ s with cal := { s.cal with working := m } }, .ok, m.entryBytes i)

/-! ### Adjustments (R154 to R156) -/

/-- The node addresses a set maps to deck `d`, lowest first. -/
def MetroSet.nodesOn (m : MetroSet) (d : Nat) : List Nat :=
  (List.range 64).filter fun v => (m.cellAt v).any (·.deck == d)

/-- The reasons both adjustments share (R154). -/
def State.runReasons (s : State) (d : Nat) : List (Reason × Bool) :=
  [(.noRun, !((s.aud.run == .opened || s.aud.run == .waiting) && s.claimOf d == .audit)),
   (.layout, s.cal.working.nodesOn d != (s.cal.active.map (·.nodesOn d)).getD [])]

/-- R155. -/
def State.zeroReasons (s : State) (d : Nat) : List (Reason × Bool) :=
  let cs := s.cellsOf d
  [(.pointWaiting, s.aud.points.any (·.state == .waiting)),
   (.moving, !s.stable d),
   (.fault, (s.decks[d]?.bind (·.fault)).isSome || cs.any (·.fault.isSome)),
   (.window, cs.any fun c => decide (c.window.length < s.filterLen)),
   (.noCells, cs.isEmpty)]

/-- The working set with the cell of a node address changed. -/
def MetroSet.modNode (m : MetroSet) (node : Nat) (f : CellConst → CellConst) : MetroSet :=
  { m with cells := m.cells.map fun p => p.map fun c => if c.node = node then f c else c }

/-- The zero counts ZERO-CELLS gives the cells of a deck: node address and new zero count (R155), in the order of the
cell table (notes/assumptions/45). -/
def State.newZeros (s : State) (d : Nat) : List (Nat × Int) :=
  (s.cellsOf d).map fun c => (c.const.node, roundDiv c.window.sum s.filterLen)

/-- The line an adjustment's answer gives for one cell: node address, old working value and new value. -/
def adjustBytes (m : MetroSet) (field : Nat) (p : Nat × Int) : List Byte :=
  bytesOf 1 p.1 ++ sbytesOf 4 ((m.param (.cell p.1 field)).getD 0) ++ sbytesOf 4 p.2

/-- ZERO_CELLS (R154, R155). While a COMMIT is queued, the lines of R154 still go in their order (notes/assumptions/55). -/
def execZeroCells (tag d : Byte) (s : State) : Host.Outcome State Fault Refusal :=
  execute { tag := tag, kind := reqZeroCells, args := [d] } s fun s =>
    match s.cal.active with
    | none => refuse s .badIndex
    | some a =>
      if a.n ≤ d.toNat then refuse s .badIndex
      else if s.cal.mode = .normal then refuse s .wrongMode
      else if s.commitQueued then refuse s .busy
      else
        let rs := reasonsWhere (s.runReasons d.toNat ++ s.zeroReasons d.toNat)
        if rs ≠ [] then notReady s rs
        else
          let zs := s.newZeros d.toNat
          ({ s with cal := { s.cal with
              working := zs.foldl (fun m p => m.modNode p.1 fun c => { c with zero := p.2 }) s.cal.working } },
            .ok, listBytes (adjustBytes s.cal.working 2) zs)

/-- R156. -/
def pointReasons (p : Point) : List (Reason × Bool) :=
  [(.notCaptured, p.indication.isNone), (.position, p.position != 0), (.nominal, p.nominal == 0)]

/-- The spans SPAN-FROM-POINT gives the cells of a deck: node address and round(k × m / I), k being the active span
(R156), in the order of the cell table (notes/assumptions/45). -/
def State.newSpans (s : State) (d : Nat) (m i : Int) : List (Nat × Int) :=
  (s.cellsOf d).map fun c => (c.const.node, roundDiv ((c.const.span : Int) * m) i)

/-- The spans are within 1 to 16,777,215. -/
def spansOk (ps : List (Nat × Int)) : Bool := ps.all fun p => decide (1 ≤ p.2) && decide (p.2 ≤ 16777215)

/-- SPAN_FROM_POINT (R154, R156). While a COMMIT is queued, the lines of R154 still go in their order
(notes/assumptions/55). -/
def execSpanFromPoint (tag p : Byte) (s : State) : Host.Outcome State Fault Refusal :=
  execute { tag := tag, kind := reqSpanFromPoint, args := [p] } s fun s =>
    match (if s.aud.run = .closed then none else s.aud.points[p.toNat]?) with
    | none => refuse s .badIndex
    | some q =>
      if s.cal.mode = .normal then refuse s .wrongMode
      else if s.commitQueued then refuse s .busy
      else
        let rs := reasonsWhere (s.runReasons q.deck ++ pointReasons q)
        if rs ≠ [] then notReady s rs
        else
          let i := q.gross.getD 0
          let ps := s.newSpans q.deck q.nominal i
          if i ≤ 0 ∨ spansOk ps = false then refuse s .range
          else
            ({ s with cal := { s.cal with
                working := ps.foldl (fun m p => m.modNode p.1 fun c => { c with span := p.2.toNat }) s.cal.working } },
              .ok, listBytes (adjustBytes s.cal.working 3) ps)

/-! ### COMMIT, LOG-ERASE and SERIAL-RESTORE (R157, R164, R165) -/

/-- The slot controller finds the bridge idle (R65). -/
def State.bridgeIdle (s : State) : Bool :=
  s.slc.claims.all (· == .none) && s.slc.slot0.state == .free && s.slc.slot1.state == .free

/-- A COMMIT accepted: the commit mark set and the job handed in. -/
def State.acceptCommit (s : State) : State :=
  State.submit { s with slc := { s.slc with commitMark := true } } .commit

/-- COMMIT (R157). -/
def execCommit (tag : Byte) (s : State) : Host.Outcome State Fault Refusal :=
  execute { tag := tag, kind := reqCommit, args := [] } s fun s =>
    let rs := inconsistencies s.cal.working
    if s.cal.mode = .normal then refuse s .wrongMode
    else if s.mst.storeFault then refuse s .storeFault
    else if s.jobQueued .cal then refuse s .busy
    else if max32 ≤ s.cal.counter then refuse s .range
    else if 32 ≤ s.cal.log.length then refuse s .logFull
    else if sameSet s.cal.working s.cal.active then refuse s .nothingToCommit
    else if rs ≠ [] then notReady s rs
    else if s.bridgeIdle = false then refuse s .notIdle
    else (State.finish s s.acceptCommit, .accepted,
      wordBytes (setCode s.cal.working) ++ bytesOf 4 (differences s.cal.working s.cal.active).length)

/-- LOG_ERASE (R164). -/
def execLogErase (tag : Byte) (s : State) : Host.Outcome State Fault Refusal :=
  execute { tag := tag, kind := reqLogErase, args := [] } s fun s =>
    if s.cal.mode = .normal then refuse s .wrongMode
    else if s.mst.storeFault then refuse s .storeFault
    else if s.jobQueued .cal then refuse s .busy
    else if max32 ≤ s.cal.counter then refuse s .range
    else if s.cal.log.any fun x => !x.read then notReady s [.unread]
    else (s.submit .logErase, .accepted, [])

/-- The floor of a SERIAL-RESTORE (R165). -/
def State.restoreFloor (s : State) : Nat :=
  max ((s.tku.serials.map (·.issued)).getD 0) ((recGood serialBytes s.mst.store.ack).getD 0)

/-- SERIAL_RESTORE (R165). -/
def execSerialRestore (tag : Byte) (v : BitVec 32) (s : State) : Host.Outcome State Fault Refusal :=
  execute { tag := tag, kind := reqSerialRestore, args := bytesOf 4 v.toNat } s fun s =>
    if s.cal.mode = .normal then refuse s .wrongMode
    else if s.mst.storeFault then refuse s .storeFault
    else if s.mst.jobs ≠ [] ∨ s.tku.heldAck.isSome = true then refuse s .busy
    else if max32 ≤ s.cal.counter then refuse s .range
    else if 32 ≤ s.cal.log.length then refuse s .logFull
    else if v.toNat < s.restoreFloor then refuse s .range
    else (s.submit (.restore v.toNat), .accepted, [])

/-! ### The audit log as read (R163) -/

/-- An audit log entry as answered (R163, R199, R204). -/
def logItemBytes (x : LogItem) : List Byte :=
  bytesOf 4 x.entry.counter ++ [logKindCode x.entry.kind] ++ opt32 x.entry.time ++ listBytes itemBytes x.entry.items
    ++ bytesOf 4 x.entry.total ++ [marksByte [x.read]]

/-- READ_ENTRY_AUDITLOG (R163): the entry is given as it stood, then its read mark is set. -/
def execReadEntryAuditlog (tag : Byte) (index : BitVec 16) (s : State) : Host.Outcome State Fault Refusal :=
  execute (readRequest tag tabAuditlog index) s fun s =>
    let i := index.toNat
    if 31 < i then refuse s .badIndex
    else
      match s.cal.log[i]? with
      | none => (s, .ok, [])
      | some x =>
        ({ s with cal := { s.cal with log := s.cal.log.modify i fun x => { x with read := true } } }, .ok,
          logItemBytes x)

end Sys2Proof.Machine
end

