-- ==== Sys2Proof/Machine/Cells.lean ====
section
/-! DEFINITION. The scan controller and the cell converter (01_cells_and_the_scan.md), and rows
SCAN_TIMER_EXPIRY and ACK_FLAGS. -/

namespace Sys2Proof.Machine

/-! ### Conversion (R10 to R12) -/

/-- The linearity correction beyond breakpoint (x0, e0) (R11). -/
def correctionFrom (x0 e0 : Int) : List (Nat × Int) → Int → Int
  | [], _ => e0
  | (x1, e1) :: rest, m =>
    if m ≤ x1 then e0 + roundDiv ((e1 - e0) * (m - x0)) (x1 - x0) else correctionFrom x1 e1 rest m

/-- The linearity correction of a span value (R11). -/
def correction (bs : List (Nat × Int)) (m : Int) : Int := if m ≤ 0 then 0 else correctionFrom 0 0 bs m

/-- The cell mass of a raw count (R10 to R12). -/
def convert (c : CellConst) (raw : Int) : Int :=
  let m1 := saturate (roundDiv ((raw - c.zero) * c.span) 65536)
  let m2 := saturate (m1 - correction c.breaks m1)
  saturate (roundDiv (m2 * c.corner) 16384)

/-! ### Fault states (R14 to R17) -/

/-- Cell `i` is faulted with a reason (R14, R15): a CLEAR cell enters FAULT, its raw window emptied, and its deck is told
(R28); a change raises CELL_FAULT (R17). -/
def State.failCell (s : State) (i : Nat) (r : CellFault) : State :=
  match s.cells[i]? with
  | none => s
  | some c =>
    let s1 := s.modCell i fun c => { c with fault := some r, window := if c.fault.isNone then [] else c.window }
    let s2 := if c.fault = some r then s1 else s1.raise (.cellFault i c.const.node (some r))
    if c.fault.isNone then s2.cellFailed c.const.deck else s2

/-- An OK reply taken by a cell record: converted, counted toward clearing, and its entry written (R12, R13, R16). -/
def Cell.takeOk (f : Nat) (raw : Int) (c : Cell) : Cell :=
  let c1 := { c with mass := some (convert c.const raw), misses := 0 }
  if c.fault.isNone then { c1 with window := joinWindow f c.window raw, entry := .ok }
  else if c.clearing < 2 then { c1 with clearing := c.clearing + 1, entry := .faulted }
  else { c1 with fault := none, clearing := 0, entry := .ok }

/-- An OK reply of cell `i` (R16), with the notice of a return to CLEAR (R17). -/
def State.okReply (s : State) (i : Nat) (raw : Int) : State :=
  match s.cells[i]? with
  | none => s
  | some c =>
    let s1 := s.modCell i (Cell.takeOk s.filterLen raw)
    if c.fault.isSome ∧ 2 ≤ c.clearing then s1.raise (.cellFault i c.const.node none) else s1

/-- An OVERRANGE or NODE_FAULT reply of cell `i` (R15). -/
def State.badReply (s : State) (i : Nat) (r : CellFault) : State :=
  (s.modCell i fun c => { c with misses := 0, clearing := 0, entry := .faulted }).failCell i r

/-- Cell `i` has missed the scan that closes (R14). -/
def State.missScan (s : State) (i : Nat) : State :=
  match s.cells[i]? with
  | none => s
  | some c =>
    if c.entry = .notReplied then
      let misses := min (c.misses + 1) 255
      let s1 := s.modCell i fun c => { c with misses := misses, clearing := 0 }
      if s.missLimit ≤ misses then s1.failCell i .timeout else s1
    else s

/-! ### CELL replies (R4 to R6) -/

/-- The status a reply is taken with: its own, or NODE_FAULT when its contents lie outside their ranges (R5). -/
def replyStatus (temperature : Int) (excitation status : Nat) : ReplyStatus :=
  if -400 ≤ temperature ∧ temperature ≤ 850 ∧ excitation ≤ 12000 then
    match status with
    | 0 => .ok
    | 1 => .overrange
    | _ => .nodeFault
  else .nodeFault

/-- The values an accepted reply of cell `i` gives its monitors, TEMPERATURE before EXCITATION (notes/assumptions/22);
none for one taken as NODE_FAULT (R18). -/
def replyReadings (i : Nat) (st : ReplyStatus) (temperature : Int) (excitation : Nat) : List Reading :=
  if st = .nodeFault then []
  else [{ cell := i, kind := .temperature, value := temperature }, { cell := i, kind := .excitation, value := excitation }]

/-- The work of one accepted reply of cell `i` (R6). -/
def State.acceptReply (s : State) (i : Nat) (raw temperature : Int) (excitation status : Nat) : State :=
  let st := replyStatus temperature excitation status
  let s1 := s.modCell i fun c =>
    { c with last := some { raw := raw, temperature := temperature, excitation := excitation, status := st } }
  let s2 := s1.monitor (replyReadings i st temperature excitation)
  let s3 := match st with
    | .ok => s2.okReply i raw
    | .overrange => s2.badReply i .overrange
    | .nodeFault => s2.badReply i .node
  match s3.cells[i]? with
  | some c => if s3.scanComplete c.const.deck then s3.deckScan c.const.deck else s3
  | none => s3

/-- A CELL frame that passed the field port's checks (R4). -/
def State.takeCell (s : State) (node scan : Byte) (raw : BitVec 24) (temperature excitation : BitVec 16)
    (status : Byte) : State :=
  match s.cells.findIdx? fun c => c.const.node == node.toNat with
  | none => { s with scn := { s.scn with unknownCell := bump16 s.scn.unknownCell } }
  | some i =>
    if s.scn.isOpen ∧ scan = s.scn.number then
      if (s.cells[i]?.map (·.entry)).getD .faulted = .notReplied then
        State.finish s (s.acceptReply i raw.toInt temperature.toInt excitation.toNat status.toNat)
      else { s with scn := { s.scn with repeated := bump16 s.scn.repeated } }
    else { s with scn := { s.scn with stale := bump16 s.scn.stale } }

/-! ### The scan timer (R2) -/

/-- The open scan closed: misses in cell index order (R2, R14). An abandoned deck takes nothing (R29). -/
def State.closeScan (s : State) : State := (List.range s.cells.length).foldl State.missScan s

/-- A scan opened: the number, the emptied reply record, the SCAN frame and the timer (R2, R185). -/
def State.openScan (s : State) (number : Byte) : State :=
  { s with
    scn := { s.scn with number := number, isOpen := true, timer := some s.scanPeriod }
    cells := s.cells.map fun c => { c with entry := .notReplied }
    decks := s.decks.map fun k => { k with scanLost := false }
    fpt := { s.fpt with scanWaiting := some number } }

/-- SCAN_TIMER_EXPIRY (R2). -/
def execScanTimerExpiry (s : State) : Host.Outcome State Fault Refusal :=
  whenPowered s fun s =>
    if s.scn.isOpen then State.finish s (s.closeScan.openScan (s.scn.number + 1))
    else State.finish s (s.openScan s.scn.number)

/-! ### ACK-FLAGS (R22) -/

/-- ACK-FLAGS on the cells named: the flags whose condition is absent clear; the answer counts those that remain. -/
def ackFlagsOn (s : State) (is : List Nat) : Answered :=
  let s1 := is.foldl State.ackCell s
  (State.finish s s1, .ok, bytesOf 4 ((is.map fun i => (s1.cells[i]?.map Cell.flagsSet).getD 0).sum))

/-- ACK_FLAGS (R22). -/
def execAckFlags (tag cell : Byte) (s : State) : Host.Outcome State Fault Refusal :=
  execute { tag := tag, kind := reqAckFlags, args := [cell] } s fun s =>
    if cell = 0xFF#8 then ackFlagsOn s (List.range s.cells.length)
    else if cell.toNat < s.cells.length then ackFlagsOn s [cell.toNat]
    else refuse s .badIndex

end Sys2Proof.Machine
end

