-- ==== Sys2Proof/Machine/Tables.lean ====
section
/-! DEFINITION. Tables read and written by request (10.3 of 10_the_bridge_link_and_management.md): SETTINGS, CELLS,
DECKS with ZERO, SLOTS, CLASSES, IDENTITY, and the rows that refuse a table or a request. -/

namespace Sys2Proof.Machine

/-! ### SETTINGS (R189) -/

/-- The ends of a setting's range (R189, R20), for the settings that have one. -/
def settingRange (i : Nat) : Option (Int × Int) :=
  match i with
  | 0 => some (10, 100)
  | 1 => some (2, 10)
  | 3 => some (4, 32)
  | 4 => some (1, 6)
  | 5 => some (1, 10)
  | 6 => some (10, 120)
  | 7 => some (1, 10)
  | 8 => some (1000, 3000)
  | 16 => some (100, 1000)
  | 17 => some (1, 10)
  | 18 => some (10, 120)
  | 19 => some (1, 168)
  | 20 => some (1, 90)
  | 21 => some (0, 32)
  | 22 => some (30, 600)
  | _ =>
    if 9 ≤ i ∧ i ≤ 15 then some (300, 1000)
    else if 23 ≤ i ∧ i ≤ 26 then some (-400, 850)
    else if 27 ≤ i ∧ i ≤ 30 then some (0, 12000)
    else if 31 ≤ i ∧ i ≤ 34 then some (-1000000, 1000000)
    else none

/-- The filter length a written value is taken to (R30). -/
def filterLength (v : Int) : Int :=
  if v < 2 then 1 else if v < 4 then 2 else if v < 8 then 4 else if v < 16 then 8 else 16

/-- The value a write of setting `i` leaves, or none for a mask value that is neither set nor clear
(notes/assumptions/20). -/
def settingValue (i : Nat) (v : Int) : Option Int :=
  if i = 2 then some (filterLength v)
  else
    match settingRange i with
    | some (lo, hi) => some (max lo (min hi v))
    | none => if v = 0 ∨ v = 1 then some v else none

/-- The windows after a write of the filter length or the stability window: the oldest values leave (R13, R30, R31). -/
def State.trimWindows (s : State) : State :=
  { s with
    cells := s.cells.map fun c => { c with window := newest s.filterLen c.window }
    decks := s.decks.map fun k =>
      { k with filter := newest s.filterLen k.filter, motionWin := newest s.stabilityLen k.motionWin } }

def settingBytes (v : Int) : List Byte := sbytesOf 4 v

/-- READ_ENTRY_SETTINGS (R189). -/
def execReadEntrySettings (tag : Byte) (index : BitVec 16) (s : State) : Host.Outcome State Fault Refusal :=
  execute (readRequest tag tabSettings index) s fun s =>
    match s.settings[index.toNat]? with
    | some v => (s, .ok, settingBytes v)
    | none => refuse s .badIndex

/-- WRITE_ENTRY_SETTINGS (R189). -/
def execWriteEntrySettings (tag : Byte) (index : BitVec 16) (contents : List Byte) (s : State) :
    Host.Outcome State Fault Refusal :=
  execute (writeRequest tag tabSettings index contents) s fun s =>
    let i := index.toNat
    if contents.length ≠ 4 then refuse s .badValue
    else if 46 < i then refuse s .badIndex
    else if s.notIdle then refuse s .notIdle
    else
      match settingValue i (intOf contents) with
      | none => refuse s .badValue
      | some v =>
        (State.trimWindows { s with settings := s.settings.setIfInBounds i v },
          if v = intOf contents then .ok else .okClamped, settingBytes v)

/-! ### CELLS (R24) -/

def replyBytes (r : Reply) : List Byte :=
  sbytesOf 3 r.raw ++ sbytesOf 2 r.temperature ++ bytesOf 2 r.excitation ++ [replyStatusCode r.status]

/-- Cell `i`'s record as answered: R7's fields, then R8's, the raw window as a list (notes/assumptions/63). -/
def cellBytes (i : Nat) (c : Cell) : List Byte :=
  let marks := c.flags.toList ++ [c.suspect, c.warn]
  bytesOf 1 i ++ bytesOf 1 c.const.node ++ bytesOf 1 c.const.deck ++ sbytesOf 4 c.const.zero
    ++ bytesOf 4 c.const.span ++ listBytes breakBytes c.const.breaks ++ bytesOf 4 c.const.corner
    ++ optField 8 (c.last.map replyBytes) ++ optMass c.mass ++ listBytes (sbytesOf 3) c.window
    ++ [if c.fault.isSome then 1#8 else 0#8, optCode cellFaultCode c.fault]
    ++ bytesOf 4 c.clearing ++ bytesOf 4 c.misses ++ optMass c.drift
    ++ [marksByte (marks.take 8), marksByte (marks.drop 8)]

/-- READ_ENTRY_CELLS (R24). -/
def execReadEntryCells (tag : Byte) (index : BitVec 16) (s : State) : Host.Outcome State Fault Refusal :=
  execute (readRequest tag tabCells index) s fun s =>
    match s.cells[index.toNat]? with
    | some c => (s, .ok, cellBytes index.toNat c)
    | none => refuse s .badIndex

/-! ### DECKS and ZERO (R37, R40) -/

/-- The codes R201 gives the conditions. -/
def conditionCode : Condition → Byte
  | .nozero => 0 | .fault => 1 | .overrange => 2 | .underrange => 3 | .normal => 4

/-- Deck `d`'s record as answered (R40). The expiry stands as in a WEIGHT report (R201): four bytes, 0 unless VERIFIED
(notes/assumptions/49); each window stands as a list (notes/assumptions/63). -/
def State.deckBytes (s : State) (d : Nat) (k : Deck) : List Byte :=
  [conditionCode (s.condition d k), optCode deckFaultCode k.fault, motionCode k.motion, zeroStatusCode k.zeroStatus,
   marksByte [s.deckSuspect d, s.deckWarn d, k.untracked], claimCode (s.claimOf d)]
    ++ standingBytes (s.standingOf d) ++ bytesOf 1 (s.axleCount d) ++ bytesOf 1 (s.strayCount d)
    ++ optMass k.w ++ optMass (k.zero.map (·.z)) ++ optMass (k.zero.map (·.init)) ++ optMass k.gross
    ++ optMass (s.roundedGross k) ++ listBytes massBytes k.filter ++ listBytes massBytes k.motionWin

/-- READ_ENTRY_DECKS (R25, R40). -/
def execReadEntryDecks (tag : Byte) (index : BitVec 16) (s : State) : Host.Outcome State Fault Refusal :=
  execute (readRequest tag tabDecks index) s fun s =>
    match s.decks[index.toNat]? with
    | some k => (s, .ok, s.deckBytes index.toNat k)
    | none => refuse s .badIndex

/-- The reasons that refuse a ZERO request (R37). -/
def State.zeroRefusals (s : State) (d : Nat) (k : Deck) : List Reason :=
  reasonsWhere
    [(Reason.fault, k.fault.isSome), (Reason.nozero, k.zero.isNone), (Reason.moving, k.motion != .stable),
     (Reason.axles, !s.axleFree d), (Reason.claimed, s.claimOf d != .none)]

/-- ZERO (R37). -/
def execZero (tag d : Byte) (s : State) : Host.Outcome State Fault Refusal :=
  execute { tag := tag, kind := reqZero, args := [d] } s fun s =>
    match s.decks[d.toNat]? with
    | none => refuse s .badIndex
    | some k =>
      let rs := s.zeroRefusals d.toNat k
      if rs ≠ [] then notReady s rs
      else
        let w := k.w.getD 0
        if withinPercent 2 (s.deckMax d.toNat) (w - (k.zero.map (·.init)).getD 0) then
          (State.finish s (s.modDeck d.toNat (Deck.zeroTo s.zeroIntervalMs w)), .ok, massBytes w)
        else refuse s .zeroRange

/-! ### SLOTS (R67) -/

/-- Axles of a slot's list as answered, from position `i` on: position, deck, spacing, strip duration and suspect mark
(R51, R199). -/
def axleListBytes : Nat → List (AxleRec × Nat) → List Byte
  | _, [] => []
  | i, (a, d) :: rest =>
    bytesOf 4 i ++ bytesOf 1 d ++ opt32 a.spacing ++ bytesOf 4 a.duration ++ [marksByte [a.suspect]]
      ++ axleListBytes (i + 1) rest

/-- The groups of a slot's grouping as answered, the first axle standing at position `i`: type, number of axles,
positions of its first and last axles, and decks (R62, notes/assumptions/36). -/
def groupListBytes : Nat → List (List (AxleRec × Nat)) → List Byte
  | _, [] => []
  | i, g :: rest =>
    [groupTypeCode (groupType g.length)] ++ bytesOf 4 g.length ++ bytesOf 4 i ++ bytesOf 4 (i + g.length - 1)
      ++ listBytes (bytesOf 1) (g.map (·.2)).eraseDups ++ groupListBytes (i + g.length) rest

/-- A pair of numbers of `k` bytes each, or absent. -/
def optPair (k : Nat) (p : Option (Nat × Nat)) : List Byte :=
  optField (2 * k) (p.map fun p => bytesOf k p.1 ++ bytesOf k p.2)

/-- Codes of a group's reason, by the list of R91. -/
def groupReasonCode : CheckReason → Byte
  | .overflow => 0 | .pattern => 1 | .unclaimed => 2 | .sharedDeck => 3 | .noGross => 4 | .moving => 5
  | .noClass => absentCode

/-- An entry of a check's group list as answered (R91): positions of four bytes and deck numbers of one, each pair behind
one presence byte (R199, notes/assumptions/36). -/
def checkGroupBytes (g : CheckGroup) : List Byte :=
  [groupTypeCode g.type] ++ optPair 4 g.axles ++ optPair 1 g.decks ++ optMass g.load ++ massBytes g.limit
    ++ massBytes g.ceiling ++ [verdictCode g.verdict, optCode groupReasonCode g.reason]

/-- A computed check as answered (R90). -/
def checkBytes (c : Check) : List Byte :=
  bytesOf 1 c.classCode ++ [sourceCode c.source] ++ listBytes (fun t => [groupTypeCode t]) c.pattern
    ++ listBytes checkGroupBytes c.groups ++ optMass c.gross ++ optMass c.grossLimit ++ optMass c.grossCeiling
    ++ [optCode verdictCode c.grossVerdict, verdictCode c.overall] ++ nameSet (c.reasons.map CheckReason.name)
    ++ [marksByte [c.hold]]

/-- A check result as answered: standing NONE holds no other field (R90). -/
def checkResultBytes : CheckResult → List Byte
  | .none => [0#8]
  | .current c => 1#8 :: checkBytes c
  | .frozen c => 2#8 :: checkBytes c

/-- A slot's entry as answered (R67), formed whole by R199 also where that is longer than a RESPONSE carries
(notes/assumptions/54). -/
def State.slotBytes (s : State) (t : SlotId) : List Byte :=
  let v := s.slot t
  let run := s.runOf t
  let axles := s.axleList t
  let groups := s.grouping t
  [slotStateCode v.state] ++ identityBytes v.identity ++ opt32 v.permit
    ++ optPair 1 (run.head?.bind fun a => run.getLast?.map fun b => (a, b))
    ++ [marksByte [v.barred, v.spanBreach, v.intruded, v.overHeld, v.axleOverflow, v.quiet],
        if v.quietTimer.isSome then 0#8 else 1#8]
    ++ (bytesOf 1 axles.length ++ axleListBytes 1 axles) ++ bytesOf 4 (s.overflowCount t)
    ++ (bytesOf 1 groups.length ++ groupListBytes 1 groups) ++ checkResultBytes v.check

/-- The bridge entry as answered (R67), the claim table as a list behind a count byte, which is the model's choice
(notes/assumptions/63). -/
def State.bridgeEntryBytes (s : State) : List Byte :=
  listBytes (fun c => [claimCode c]) s.slc.claims ++ [marksByte [s.slc.commitMark]] ++ identityBytes s.slc.waiting
    ++ opt32 (s.slc.waitingTimer.map remainingSeconds) ++ [aspectCode s.entryAspect, aspectCode s.exitAspect]

/-- READ_ENTRY_SLOTS (R67). -/
def execReadEntrySlots (tag : Byte) (index : BitVec 16) (s : State) : Host.Outcome State Fault Refusal :=
  execute (readRequest tag tabSlots index) s fun s =>
    match index.toNat with
    | 0 => (s, .ok, s.slotBytes .slot0)
    | 1 => (s, .ok, s.slotBytes .slot1)
    | 2 => (s, .ok, s.bridgeEntryBytes)
    | _ => refuse s .badIndex

/-! ### CLASSES (R88, R89) -/

/-- A class entry as answered; an empty one is its class code 0 alone (notes/assumptions/30). -/
def classBytes : Option ClassEntry → List Byte
  | none => [0#8]
  | some c =>
    bytesOf 1 c.code ++ listBytes (fun t => [groupTypeCode t]) c.pattern ++ listBytes massBytes c.limits
      ++ massBytes c.grossLimit ++ bytesOf 4 c.tolerance.toNat ++ [marksByte [c.hold]]

/-- READ_ENTRY_CLASSES (R88). -/
def execReadEntryClasses (tag : Byte) (index : BitVec 16) (s : State) : Host.Outcome State Fault Refusal :=
  execute (readRequest tag tabClasses index) s fun s =>
    match s.classes[index.toNat]? with
    | some c => (s, .ok, classBytes c)
    | none => refuse s .badIndex

/-- The group type a code of a pattern names (R88). -/
def typeOf (b : Byte) : Option GroupType :=
  match b.toNat with
  | 0 => some .single
  | 1 => some .tandem
  | 2 => some .tri
  | 3 => some .quad
  | _ => none

/-- The masses of a list field. -/
def massesOf : Nat → List Byte → List Int
  | 0, _ => []
  | k + 1, bs => intOf (bs.take 4) :: massesOf k (bs.drop 4)

/-- The fields of a class entry as written (R88). -/
structure ClassFields where
  code : Nat
  types : List Byte
  limits : List Int
  grossLimit : Int
  tolerance : Nat
  hold : Bool
  deriving DecidableEq, Repr

/-- The fields of a CLASSES entry's contents, none where the form is not R199's. A limit written as 0x80000000, an absent
mass, is read as the number those bytes hold, and so clamped (notes/assumptions/43). -/
def classFields (bs : List Byte) : Option ClassFields :=
  let p := (bs.getD 1 0).toNat
  let rest := bs.drop (2 + p)
  let n := (rest.getD 0 0).toNat
  let tail := rest.drop (1 + 4 * n)
  if bs.length = 2 + p + 1 + 4 * n + 9 then
    (markOf (tail.getD 8 0)).map fun hold =>
      { code := (bs.getD 0 0).toNat, types := (bs.drop 2).take p, limits := massesOf n (rest.drop 1),
        grossLimit := intOf (tail.take 4), tolerance := natOf ((tail.drop 4).take 4), hold := hold }
  else none

/-- A limit taken to the nearer end of its range (R88, R89). -/
def clampLimit (x : Int) : Int := max 1 (min 600000000 x)

/-- The entry the fields make, its values taken into their ranges (R89). -/
def ClassFields.entry (f : ClassFields) (pattern : List GroupType) : ClassEntry :=
  { code := f.code, pattern := pattern, limits := f.limits.map clampLimit, grossLimit := clampLimit f.grossLimit,
    tolerance := min f.tolerance 100, hold := f.hold }

/-- A value of the fields lies outside its range. -/
def ClassFields.clamped (f : ClassFields) : Bool :=
  (f.grossLimit :: f.limits).any (fun x => clampLimit x != x) || decide (100 < f.tolerance)

/-- Another entry in use than `i` holds the class code. -/
def State.classTaken (s : State) (i code : Nat) : Bool :=
  s.classes.toList.zipIdx.any fun q => q.2 != i && (q.1.map (·.code)) == some code

/-- WRITE_ENTRY_CLASSES (R89). -/
def execWriteEntryClasses (tag : Byte) (index : BitVec 16) (contents : List Byte) (s : State) :
    Host.Outcome State Fault Refusal :=
  execute (writeRequest tag tabClasses index contents) s fun s =>
    let i := index.toNat
    let put := fun (c : Option ClassEntry) => { s with classes := s.classes.setIfInBounds i c }
    let fields := classFields contents
    if contents.head? ≠ some 0#8 ∧ fields = none then refuse s .badValue
    else if 23 < i then refuse s .badIndex
    else if s.notIdle then refuse s .notIdle
    else if contents.head? = some 0#8 then (put none, .ok, classBytes none)
    else
      match fields with
      | none => refuse s .badValue
      | some f =>
        let pattern := f.types.filterMap typeOf
        if f.types = [] ∨ 6 < f.types.length ∨ pattern.length ≠ f.types.length
            ∨ f.limits.length ≠ f.types.length then refuse s .badValue
        else if s.classTaken i f.code then refuse s .duplicate
        else (put (some (f.entry pattern)), if f.clamped then .okClamped else .ok, classBytes (some (f.entry pattern)))

/-! ### IDENTITY (R191) -/

/-- The fields of the identity entry before its check word, in the order of R191. That the untracked-crossing counts of the
six decks stand as six fields of four bytes, with no count byte before them, is the model's choice
(notes/assumptions/58). -/
def State.identityFields (s : State) : List Byte :=
  let counts := fun (r : Receiver) => bytesOf 4 r.badLength ++ bytesOf 4 r.badCheck ++ bytesOf 4 r.unknownKind
  bytesOf 4 Config.vendorCode.toNat ++ bytesOf 4 Config.partCode.toNat ++ bytesOf 4 Config.revision.toNat
    ++ bytesOf 4 Config.partSerial.toNat ++ [modeCode s.cal.mode] ++ optField 2 (s.activeCode.map wordBytes)
    ++ bytesOf 4 s.cal.counter ++ counts s.fpt.inward
    ++ bytesOf 4 s.scn.unknownCell ++ bytesOf 4 s.scn.stale ++ bytesOf 4 s.scn.repeated
    ++ bytesOf 4 s.axt.unknownBoundary ++ bytesOf 4 s.axt.repeated ++ bytesOf 4 s.axt.suspect
    ++ s.axt.untracked.toList.flatMap (bytesOf 4)
    ++ counts s.gpt.inward ++ bytesOf 4 s.gpt.unanswered ++ bytesOf 4 s.gpt.dropped

/-- READ_ENTRY_IDENTITY (R191). -/
def execReadEntryIdentity (tag : Byte) (index : BitVec 16) (s : State) : Host.Outcome State Fault Refusal :=
  execute (readRequest tag tabIdentity index) s fun s =>
    if index = 0 then (s, .ok, s.identityFields ++ wordBytes (checkWord s.identityFields)) else refuse s .badIndex

/-! ### Tables and requests that are refused (R187, R188) -/

/-- WRITE_ENTRY_READ_ONLY_TABLE (R188). -/
def execWriteEntryReadOnlyTable (tag table : Byte) (index : BitVec 16) (contents : List Byte) (s : State) :
    Host.Outcome State Fault Refusal :=
  if readOnlyTable table then execute (writeRequest tag table index contents) s fun s => refuse s .badValue
  else .next s

/-- UNKNOWN_TABLE_NAME (R188): a READ-ENTRY or WRITE-ENTRY of a table code beyond IDENTITY's. -/
def execUnknownTableName (tag kind table : Byte) (index : BitVec 16) (contents : List Byte) (s : State) :
    Host.Outcome State Fault Refusal :=
  let r : Request := { tag := tag, kind := kind, args := table :: (bytesOf 2 index.toNat ++ contents) }
  if 12 ≤ table.toNat ∧ kind.toNat ≤ 1 ∧ formOk kind r.args = true then execute r s fun s => refuse s .badIndex
  else .next s

/-- UNKNOWN_REQUEST (R187): a kind the port does not know, or arguments without the form their kind requires. -/
def execUnknownRequest (tag kind : Byte) (args : List Byte) (s : State) : Host.Outcome State Fault Refusal :=
  if knownKind kind = false then
    execute { tag := tag, kind := kind, args := args } s fun s => refuse s .unknownRequest
  else if formOk kind args = false then
    execute { tag := tag, kind := kind, args := args } s fun s => refuse s .badValue
  else .next s

end Sys2Proof.Machine
end

