-- ==== Sys2Proof/Machine/Link.lean ====
section
/-! DEFINITION. The two ports' traffic (10_the_bridge_link_and_management.md): frames as characters, the request queue,
the time of day, and the frames sent on each line. -/

namespace Sys2Proof.Machine

/-! ### The time of day (R190) -/

/-- SET_TIME (R190): the first one after power-up starts the two sweeps. -/
def execSetTime (tag : Byte) (t : BitVec 32) (s : State) : Host.Outcome State Fault Refusal :=
  execute { tag := tag, kind := reqSetTime, args := bytesOf 4 t.toNat } s fun s =>
    let start := fun (old : Timer) => if s.gpt.time.isNone then some 60000 else old
    ({ s with
        gpt := { s.gpt with time := some t.toNat, phase := 0 }
        tku := { s.tku with sweep := start s.tku.sweep }
        aud := { s.aud with sweep := start s.aud.sweep } },
      .ok, opt32 s.gpt.time)

/-- TIME_TICK (R190). -/
def execTimeTick (s : State) : Host.Outcome State Fault Refusal :=
  whenPowered s fun s =>
    { s with gpt := { s.gpt with time := s.gpt.time.map fun t => min (t + 1) max32, phase := 0 } }

/-! ### Requests taken (R186) -/

/-- A REQUEST frame that passed the port's checks (R186). -/
def State.takeRequest (s : State) (r : Request) : State :=
  if s.gpt.requests.length < 4 then { s with gpt := { s.gpt with requests := s.gpt.requests ++ [r] } }
  else if s.gpt.responses.length < 4 then s.answer r .queueFull []
  else { s with gpt := { s.gpt with unanswered := bump16 s.gpt.unanswered } }

/-! ### Frames assembled from characters (R184) -/

def State.receiver (s : State) : Port → Receiver
  | .field => s.fpt.inward
  | .gatehouse => s.gpt.inward

def State.modReceiver (s : State) (p : Port) (f : Receiver → Receiver) : State :=
  match p with
  | .field => { s with fpt := { s.fpt with inward := f s.fpt.inward } }
  | .gatehouse => { s with gpt := { s.gpt with inward := f s.gpt.inward } }

/-- The lengths a kind the port takes inward allows (R198); none for a kind it does not take. -/
def inwardLength (p : Port) (kind : Byte) : Option (Nat × Nat) :=
  match p with
  | .field =>
    if kind = 0x11#8 then some (11, 11)
    else if kind = 0x12#8 then some (11, 11)
    else if kind = 0x13#8 then some (10, 10)
    else if kind = 0x14#8 then some (3, 3)
    else none
  | .gatehouse => if kind = 0x21#8 then some (3, 512) else none

/-- How an assembled frame is judged (R184). -/
inductive Judgement where
  | badLength
  | badCheck
  | unknownKind
  | passes
  deriving DecidableEq, Repr

/-- The lane code of an IDENT frame, and the lane and key codes of a LANE-KEY frame, are ones R200 gives. -/
def laneCodesOk (kind : Byte) (body : List Byte) : Bool :=
  if kind = 0x13#8 then decide ((body.getD 0 0).toNat ≤ 1)
  else if kind = 0x14#8 then decide ((body.getD 0 0).toNat ≤ 1) && decide ((body.getD 1 0).toNat ≤ 1)
  else true

/-- The first case of R184 that applies to a frame of the covered characters (length, kind, body) and check word. A frame
of length 0 holds no kind; it is judged by its check word and then as a kind not taken inward, which is the model's
choice (notes/assumptions/48). -/
def judgeFrame (p : Port) (covered : List Byte) (word : List Byte) : Judgement :=
  let l := natOf (covered.take 2)
  let kind := covered[2]?
  match kind.bind (inwardLength p) with
  | some (lo, hi) =>
    if l < lo ∨ hi < l then .badLength
    else if word ≠ wordBytes (checkWord covered) then .badCheck
    else if laneCodesOk (kind.getD 0) (covered.drop 3) then .passes
    else .unknownKind
  | none => if word ≠ wordBytes (checkWord covered) then .badCheck else .unknownKind

def laneOf (b : Byte) : Lane := if b = 0#8 then .entry else .exit

/-- A frame that passed, handed to its block (R185, R186, R200, R201). -/
def State.dispatch (s : State) (kind : Byte) (body : List Byte) : State :=
  let byte := fun (i : Nat) => body.getD i 0
  let word := fun (i : Nat) => BitVec.ofNat 32 (natOf ((body.drop i).take 4))
  let half := fun (i : Nat) => BitVec.ofNat 16 (natOf ((body.drop i).take 2))
  if kind = 0x11#8 then
    s.takeCell (byte 0) (byte 1) (BitVec.ofNat 24 (natOf ((body.drop 2).take 3))) (half 5) (half 7) (byte 9)
  else if kind = 0x12#8 then s.takeAxle (byte 0) (word 1) (word 5) (byte 9)
  else if kind = 0x13#8 then s.takeIdent (laneOf (byte 0)) (BitVec.ofNat 64 (natOf (body.drop 1)))
  else if kind = 0x14#8 then
    if byte 1 = 0#8 then s.takePrint (laneOf (byte 0)) else s.takeCancel (laneOf (byte 0))
  else if kind = 0x21#8 then s.takeRequest { tag := byte 0, kind := byte 1, args := body.drop 2 }
  else s

/-- A whole frame, its marker among the characters, judged (R184). -/
def State.takeFrame (s : State) (p : Port) (chars : List Byte) : State :=
  let covered := (chars.drop 1).take (chars.length - 3)
  match judgeFrame p covered (chars.drop (chars.length - 2)) with
  | .badLength => s.modReceiver p fun r => { r with badLength := bump16 r.badLength }
  | .badCheck => s.modReceiver p fun r => { r with badCheck := bump16 r.badCheck }
  | .unknownKind => s.modReceiver p fun r => { r with unknownKind := bump16 r.unknownKind }
  | .passes => s.dispatch (covered.getD 2 0) (covered.drop 3)

/-- One character received (R184). -/
def State.takeChar (p : Port) (s : State) (c : Byte) : State :=
  let rx := (s.receiver p).rx
  if rx = [] then (if c = 0xA5#8 then s.modReceiver p fun r => { r with rx := [c] } else s)
  else
    let rx1 := rx ++ [c]
    if 3 ≤ rx1.length ∧ rx1.length = natOf ((rx1.drop 1).take 2) + 5 then
      (s.modReceiver p fun r => { r with rx := [] }).takeFrame p rx1
    else s.modReceiver p fun r => { r with rx := rx1 }

/-- FRAME_PAUSE (R184): the characters, and then the pause that ends a frame not yet whole. -/
def execFramePause (p : Port) (chars : List Byte) (s : State) : Host.Outcome State Fault Refusal :=
  whenPowered s fun s =>
    let s1 := chars.foldl (State.takeChar p) s
    if (s1.receiver p).rx = [] then s1
    else s1.modReceiver p fun r => { r with rx := [], badLength := bump16 r.badLength }

/-- BAD_FRAME (R184): the characters, each frame they make whole judged by R184's cases. -/
def execBadFrame (p : Port) (chars : List Byte) (s : State) : Host.Outcome State Fault Refusal :=
  whenPowered s fun s => chars.foldl (State.takeChar p) s

/-- A whole frame of that kind and body, its check word right, as a port hears it (R184). While the port waits for a start
marker, the frame is taken as `take` says; while a frame is part-assembled, the characters join that frame, one by one
(notes/assumptions/6). -/
def State.hear (p : Port) (kind : Byte) (body : List Byte) (take : State → State) (s : State) : State :=
  if (s.receiver p).rx = [] then take s else (frameBytes kind body).foldl (State.takeChar p) s

/-! ### Frames as typed rows (R185, R186) -/

/-- The body of a CELL frame (R200). -/
def cellBody (node scan : Byte) (raw : BitVec 24) (temperature excitation : BitVec 16) (status : Byte) : List Byte :=
  [node, scan] ++ bytesOf 3 raw.toNat ++ bytesOf 2 temperature.toNat ++ bytesOf 2 excitation.toNat ++ [status]

/-- The body of an AXLE frame (R200). -/
def axleBody (boundary : Byte) (tA tB : BitVec 32) (status : Byte) : List Byte :=
  [boundary] ++ bytesOf 4 tA.toNat ++ bytesOf 4 tB.toNat ++ [status]

/-- CELL_FRAME (R4, R184, R185). -/
def execCellFrame (node scan : Byte) (raw : BitVec 24) (temperature excitation : BitVec 16) (status : Byte)
    (s : State) : Host.Outcome State Fault Refusal :=
  whenPowered s (State.hear .field 0x11#8 (cellBody node scan raw temperature excitation status) fun s =>
    s.takeCell node scan raw temperature excitation status)

/-- AXLE_FRAME (R47, R184, R185). -/
def execAxleFrame (boundary : Byte) (tA tB : BitVec 32) (status : Byte) (s : State) :
    Host.Outcome State Fault Refusal :=
  whenPowered s (State.hear .field 0x12#8 (axleBody boundary tA tB status) fun s => s.takeAxle boundary tA tB status)

/-- IDENT_FRAME (R80, R184, R185). -/
def execIdentFrame (l : Lane) (i : Identity) (s : State) : Host.Outcome State Fault Refusal :=
  whenPowered s (State.hear .field 0x13#8 (laneCode l :: bytesOf 8 i.toNat) fun s => s.takeIdent l i)

/-- LANE_KEY_PRINT (R104, R184, R185). -/
def execLaneKeyPrint (l : Lane) (s : State) : Host.Outcome State Fault Refusal :=
  whenPowered s (State.hear .field 0x14#8 [laneCode l, 0#8] fun s => s.takePrint l)

/-- LANE_KEY_CANCEL (R83, R184, R185). -/
def execLaneKeyCancel (l : Lane) (s : State) : Host.Outcome State Fault Refusal :=
  whenPowered s (State.hear .field 0x14#8 [laneCode l, 1#8] fun s => s.takeCancel l)

/-- REQUEST_FRAME (R184, R186): a frame whole and with its right check word, of a length R198 allows or not. -/
def execRequestFrame (tag kind : Byte) (args : List Byte) (s : State) : Host.Outcome State Fault Refusal :=
  whenPowered s (State.hear .gatehouse 0x21#8 (tag :: kind :: args) fun s =>
    if 509 < args.length then s.modReceiver .gatehouse fun r => { r with badLength := bump16 r.badLength }
    else s.takeRequest { tag := tag, kind := kind, args := args })

/-! ### The field line (R185) -/

/-- SEND_SCAN (R185). -/
def execSendScan (s : State) : Host.Outcome State Fault Refusal :=
  whenPowered s fun s =>
    match s.fpt.scanWaiting with
    | some n => { s with fpt := { s.fpt with scanWaiting := none, lineOut := scanFrame n } }
    | none => s

/-- SEND_SIGNAL (R87, R185): no SCAN frame waits; the ENTRY node's mark goes before the EXIT node's. -/
def execSendSignal (s : State) : Host.Outcome State Fault Refusal :=
  whenPowered s fun s =>
    if s.fpt.scanWaiting.isSome then s
    else if s.fpt.entryMark then
      { s with fpt := { s.fpt with entryMark := false, entrySent := some s.entryAspect,
                                   lineOut := signalFrame .entry s.entryAspect } }
    else if s.fpt.exitMark then
      { s with fpt := { s.fpt with exitMark := false, exitSent := some s.exitAspect,
                                   lineOut := signalFrame .exit s.exitAspect } }
    else s

/-! ### The gatehouse line (R193, R194) -/

/-- The four sources of the gatehouse line. -/
inductive Source where
  | response | ticket | notice | report
  deriving DecidableEq, Repr

/-- A report mark is set. -/
def State.reportDue (s : State) : Bool := s.decks.any (·.reportMark)

/-- The source the arbiter takes the next frame from (R193). -/
def State.nextSource (s : State) : Option Source :=
  if 8 ≤ s.gpt.fairness ∧ s.reportDue = true then some .report
  else if s.gpt.responses ≠ [] then some .response
  else if s.tku.ring.any fun x => !x.sent then some .ticket
  else if s.gpt.notices ≠ [] then some .notice
  else if s.reportDue then some .report
  else none

/-- The fairness count after a frame of sources 1 to 3 (R193). -/
def raiseFairness (n : Nat) : Nat := min (n + 1) 8

/-- SEND_RESPONSE (R193). -/
def execSendResponse (s : State) : Host.Outcome State Fault Refusal :=
  whenPowered s fun s =>
    match s.nextSource, s.gpt.responses with
    | some .response, a :: rest =>
      { s with gpt := { s.gpt with responses := rest, fairness := raiseFairness s.gpt.fairness,
                                   lineOut := responseFrame a } }
    | _, _ => s

/-- Place of the first unsent record (R123). -/
def State.firstUnsent (s : State) : Option Nat := s.tku.ring.findIdx? fun x => !x.sent

/-- SEND_TICKET (R123, R193). -/
def execSendTicket (s : State) : Host.Outcome State Fault Refusal :=
  whenPowered s fun s =>
    match s.nextSource, s.firstUnsent with
    | some .ticket, some i =>
      match s.tku.ring[i]? with
      | some x =>
        { s with
          tku := { s.tku with ring := s.tku.ring.set i { x with sent := true } }
          gpt := { s.gpt with fairness := raiseFairness s.gpt.fairness, lineOut := ticketFrame (ringBytes x.record) } }
      | none => s
    | _, _ => s

/-- SEND_NOTICE (R192, R193). -/
def execSendNotice (s : State) : Host.Outcome State Fault Refusal :=
  whenPowered s fun s =>
    match s.nextSource, s.gpt.notices with
    | some .notice, n :: rest =>
      { s with gpt := { s.gpt with notices := rest, overflow := false, fairness := raiseFairness s.gpt.fairness,
                                   lineOut := noticeFrame s.gpt.overflow n } }
    | _, _ => s

/-- Deck `d` has its report mark set. -/
def State.marked (s : State) (d : Nat) : Bool := (s.decks[d]?.map (·.reportMark)).getD false

/-- The deck whose report goes next (R194): the search goes from the deck after the one last reported to the last deck,
then round from deck 0. -/
def State.nextReport (s : State) : Option Nat :=
  let ds := List.range s.decks.length
  (ds.filter (s.gpt.lastReported < ·) ++ ds).find? s.marked

/-- The WEIGHT body of deck `d` (R201). -/
def State.weightBody (s : State) (d : Nat) (k : Deck) : List Byte :=
  [BitVec.ofNat 8 d, conditionCode (s.condition d k), optCode deckFaultCode k.fault, motionCode k.motion,
   zeroStatusCode k.zeroStatus, marksByte [s.deckSuspect d, s.deckWarn d, k.untracked, s.extended d],
   claimCode (s.claimOf d)]
    ++ standingBytes (s.standingOf d) ++ bytesOf 1 (s.axleCount d) ++ bytesOf 1 (s.strayCount d)
    ++ optMass (s.reportGross d)

/-- A deck record as its report is sent (R43 to R45). -/
def Deck.reported (ms : Nat) (k : Deck) : Deck := { k with reportMark := false, delay := none, maxInterval := some ms }

/-- SEND_WEIGHT (R43, R193, R194). -/
def execSendWeight (s : State) : Host.Outcome State Fault Refusal :=
  whenPowered s fun s =>
    match s.nextSource, s.nextReport with
    | some .report, some d =>
      match s.decks[d]? with
      | some k =>
        let s1 := s.modDeck d (Deck.reported s.maxIntervalMs)
        { s1 with gpt := { s1.gpt with fairness := 0, lastReported := d, lineOut := weightFrame (s.weightBody d k) } }
      | none => s
    | _, _ => s

end Sys2Proof.Machine
end

