-- ==== Sys2Proof/Machine/Power.lean ====
section
/-! DEFINITION. The two resets and the supply: RESET (LINK) (10.8), POWER_UP with the store's load (7.4) and POWER_LOSS,
and the passing of one millisecond of the time base. -/

namespace Sys2Proof.Machine

/-! ### Link reset (R195) -/

/-- A deck at a link reset (R39, R41), `e` being the division. -/
def Deck.linkReset (e : Int) (k : Deck) : Deck :=
  { k with untracked := k.untracked || (k.zero.isSome && (k.gross.map fun g => decide (20 * e < g)).getD false),
           settle := none, checked := false, delay := none, maxInterval := none, reportMark := true }

/-- A slot controller at a link reset (R65, R67, R81). -/
def SlotCtl.linkReset (c : SlotCtl) : SlotCtl :=
  { c with claims := c.claims.map fun _ => .none, slot0 := freeSlot, slot1 := freeSlot, waiting := none,
           waitingTimer := none }

/-- A gatehouse port at a link reset (R196). -/
def GatePort.linkReset (g : GatePort) : GatePort :=
  { g with inward := { g.inward with rx := [] }, requests := [], responses := [], notices := [], overflow := false,
           fairness := 0 }

/-- A field port at a link reset (R185, R196). -/
def FieldPort.linkReset (p : FieldPort) : FieldPort :=
  { p with inward := { p.inward with rx := [] }, scanWaiting := none, entryMark := true, exitMark := true }

/-- The link reset (R195): each block takes its chapter's values (R8, R41, R64, R67, R123, R129, R147, R163, R167,
R168). -/
def State.linkReset (s : State) : State :=
  { s with
    fpt := s.fpt.linkReset
    cells := s.cells.map fun c => { c with flags := Vector.replicate 12 false }
    decks := s.decks.map (Deck.linkReset s.division)
    axt := { s.axt with line := [], last := Vector.replicate 7 none }
    slc := s.slc.linkReset
    tku := { s.tku with ring := s.tku.ring.map fun x => { x with sent := false } }
    aud := { s.aud with run := .closed, decks := [], traffic := [], points := [], timer := none }
    cal := { s.cal with mode := s.cal.switch, log := s.cal.log.map fun x => { x with read := false } }
    gpt := s.gpt.linkReset }

/-- RESET (R195). -/
def execReset (tag scope : Byte) (s : State) : Host.Outcome State Fault Refusal :=
  execute { tag := tag, kind := reqReset, args := [scope] } s fun s =>
    if scope = 0#8 then (s.linkReset, .ok, [modeCode s.linkReset.cal.mode]) else refuse s .badValue

/-! ### The power-up load (R140 to R145) -/

/-- The log entries of records that pass their check, with their slots. -/
def Store.logEntries (t : Store) : List (Nat × LogEntry) :=
  t.log.toList.zipIdx.filterMap fun q => (recGood logBytes q.1).join.map (q.2, ·)

/-- The entries left by the ERASE rule of R142: those not below the newest ERASE entry. -/
def eraseRule (es : List (Nat × LogEntry)) : List (Nat × LogEntry) :=
  match ((es.filter fun p => p.2.kind == .erase).map (·.2.counter)).max? with
  | some n => es.filter fun p => decide (n ≤ p.2.counter)
  | none => es

/-- The counter of the load (R141, R142). -/
def Store.loadCounter (t : Store) : Nat :=
  match recGood counterBytes t.counter with
  | some c => c.counter
  | none => (((eraseRule t.logEntries).map (·.2.counter)).max?).getD 0

/-- An entry put at its place in counter order. -/
def insertEntry (p : Nat × LogEntry) : List (Nat × LogEntry) → List (Nat × LogEntry)
  | [] => [p]
  | q :: rest => if q.2.counter ≤ p.2.counter then q :: insertEntry p rest else p :: q :: rest

/-- The loaded log with its slots, oldest first (R142). Entries beyond the counter go first, so that an ERASE entry
whose job never ended discards nothing (notes/assumptions/35). -/
def Store.loadLog (t : Store) : List (Nat × LogEntry) :=
  (eraseRule (t.logEntries.filter fun p => decide (p.2.counter ≤ t.loadCounter))).foldl
    (fun l p => insertEntry p l) []

/-- The active set of the load, none for UNCALIBRATED (R141). -/
def Store.loadActive (t : Store) : Option MetroSet :=
  match recGood counterBytes t.counter, recGood setBytes t.set with
  | some c, some m => if t.set.word = c.code then some m else none
  | _, _ => none

/-- The working set of the load (R150). -/
def Store.loadWorking (t : Store) : MetroSet := (recGood setBytes t.set).getD blankSet

/-- The acknowledged record is taken as stored (R143, last line). -/
def Store.ackStored (t : Store) (issued : Nat) : Option Nat :=
  match recGood serialBytes t.ack with
  | some n => if n ≤ issued then some n else none
  | none => none

/-- The serials of the load (R143). -/
def Store.loadSerials (t : Store) : Option Serials :=
  (recGood serialBytes t.serial).map fun n => { issued := n, acked := (t.ackStored n).getD n }

/-- ACK_RECORD_LOST where R143 raises it. -/
def Store.ackNotice (t : Store) : List Notice :=
  match recGood serialBytes t.serial with
  | some n => if (t.ackStored n).isNone then [.ackRecordLost n] else []
  | none => []

/-- The VOID record R128 makes. -/
def Store.loadRing (t : Store) : List RingSlot :=
  match t.loadSerials with
  | some n => if n.acked < n.issued then [{ record := .void (n.acked + 1) n.issued, sent := false }] else []
  | none => []

/-- The standings of the load (R144). -/
def Store.loadStandings (t : Store) (n : Nat) : List Standing :=
  (List.range n).map fun d => ((t.verif[d]?).bind (recGood standingBytes)).getD .unverified

/-- How the load takes a pending record (R145): the entry it loads, and the notice it raises. -/
def loadPending (serials : Option Serials) (q : Rec PendingRec × Nat) : Option PendingEntry × List Notice :=
  let beyond := fun n => (serials.map fun t => decide (t.issued < n)).getD false
  match recGood pendingBytes q.1 with
  | none => (none, [.pendingDropped q.2 none none])
  | some .empty => (none, [])
  | some (.entry i) =>
    if beyond i.serial then (none, [.pendingDropped q.2 (some i.identity) (some i.serial)])
    else (some { inbound := i, recNo := q.2 }, [])
  | some (.removed i n) => (if beyond n then some { inbound := i, recNo := q.2 } else none, [])

/-- The pending records as the load takes them, in record number order. -/
def Store.pendingJudged (t : Store) : List (Option PendingEntry × List Notice) :=
  t.pending.toList.zipIdx.map (loadPending t.loadSerials)

/-- The state as the load leaves it, before its notices (R140), with the switch at that position. -/
def Store.load (t : Store) (switch : Mode) (pending : List Instr) : State :=
  let active := t.loadActive
  let n := (active.map (·.n)).getD 1
  let fault := fun d => match active with
    | some m => setFault m d
    | none => some .uncalibrated
  { State.reset with
    pending := pending
    cells := (active.map fun m => m.cellList.map freshCell).getD []
    decks := (List.range n).map fun d => freshDeck (fault d)
    slc := { State.reset.slc with claims := List.replicate n .none }
    tku := { State.reset.tku with
      ring := t.loadRing, serials := t.loadSerials,
      pending := (t.pendingJudged.filterMap (·.1)).foldl (fun l p => insertPending p l) [] }
    aud := { State.reset.aud with standings := t.loadStandings n, lapsed := List.replicate n false }
    cal := { mode := switch, switch := switch, working := t.loadWorking, active := active, counter := t.loadCounter,
             log := t.loadLog.map fun p => { entry := p.2, read := false } }
    mst := { store := t, jobs := [], running := none, storeFault := false,
             newestSlot := t.loadLog.getLast?.map (·.1) }
    gpt := { State.reset.gpt with notices := [], lastReported := n - 1 } }

/-- The notices of power-up, in order: POWER_UP, then those of the load (R140, R192). -/
def Store.loadNotices (t : Store) (switch : Mode) : List Notice :=
  .powerUp switch switch t.loadCounter (t.loadActive.map setCode) t.loadSerials.isNone
    :: t.ackNotice ++ t.pendingJudged.flatMap (·.2)

/-- The machine after power-up with the switch at that position (R140). -/
def State.powerUp (s : State) (switch : Mode) : State :=
  (s.mst.store.loadNotices switch).foldl State.raise (s.mst.store.load switch s.pending)

/-- POWER_UP (R140); with the supply already good there is none to begin. -/
def execPowerUp (switch : Mode) (s : State) : Host.Outcome State Fault Refusal :=
  .next (if s.powered then s else s.powerUp switch)

/-! ### Loss of power (R132, R139) -/

/-- The store as the loss of power leaves it: the record being written may be torn (R132). -/
def MetroStore.torn (m : MetroStore) (left : Left) : Store :=
  match m.running.bind fun r => r.writes.head? with
  | some w => m.store.lay left w
  | none => m.store

/-- The part with no supply: the store and the queue of commands are all that is left. -/
def State.dark (t : Store) (pending : List Instr) : State :=
  { State.reset with
    pending := pending
    powered := false
    scn := { State.reset.scn with timer := none }
    mst := { State.reset.mst with store := t }
    gpt := { State.reset.gpt with notices := [] } }

/-- POWER_LOSS (R139). -/
def execPowerLoss (left : Left) (s : State) : Host.Outcome State Fault Refusal :=
  whenPowered s fun s => State.dark (s.mst.torn left) s.pending

/-! ### The time base -/

/-- One millisecond less to run. -/
def Timer.pass (t : Timer) : Timer := t.map (· - 1)

def Deck.pass (k : Deck) : Deck :=
  { k with settle := k.settle.pass, interval := k.interval.pass, delay := k.delay.pass,
           maxInterval := k.maxInterval.pass }

def Slot.pass (v : Slot) : Slot := { v with quietTimer := v.quietTimer.pass }

/-- One millisecond of every running timer (00_scope.md 5, notes/assumptions/2); expiries are rows of their own. -/
def State.tick (s : State) : State :=
  if s.powered then
    { s with
      scn := { s.scn with timer := s.scn.timer.pass }
      decks := s.decks.map Deck.pass
      slc := { s.slc with slot0 := s.slc.slot0.pass, slot1 := s.slc.slot1.pass,
                          waitingTimer := s.slc.waitingTimer.pass }
      tku := { s.tku with sweep := s.tku.sweep.pass }
      aud := { s.aud with timer := s.aud.timer.pass, sweep := s.aud.sweep.pass }
      gpt := { s.gpt with phase := if s.gpt.time.isSome then min (s.gpt.phase + 1) 1000 else 0 } }
  else s

end Sys2Proof.Machine
end

