-- ==== Sys2Proof/Machine/Dispatch.lean ====
section
/-! DEFINITION. One arm per command, each a call of its meaning. -/

namespace Sys2Proof.Machine

def exec (i : Instr) (s : State) : Host.Outcome State Fault Refusal :=
  match i with
  | .powerUp switch => Sys2Proof.Machine.execPowerUp switch s
  | .powerLoss left => Sys2Proof.Machine.execPowerLoss left s
  | .framePause port chars => Sys2Proof.Machine.execFramePause port chars s
  | .badFrame port chars => Sys2Proof.Machine.execBadFrame port chars s
  | .cellFrame node scan raw temperature excitation status => Sys2Proof.Machine.execCellFrame node scan raw temperature excitation status s
  | .scanTimerExpiry => Sys2Proof.Machine.execScanTimerExpiry s
  | .sendScan => Sys2Proof.Machine.execSendScan s
  | .sendSignal => Sys2Proof.Machine.execSendSignal s
  | .zeroSettleExpiry d => Sys2Proof.Machine.execZeroSettleExpiry d s
  | .zeroIntervalExpiry d => Sys2Proof.Machine.execZeroIntervalExpiry d s
  | .reportDelayExpiry d => Sys2Proof.Machine.execReportDelayExpiry d s
  | .maximumIntervalExpiry d => Sys2Proof.Machine.execMaximumIntervalExpiry d s
  | .axleFrame boundary tA tB status => Sys2Proof.Machine.execAxleFrame boundary tA tB status s
  | .quietTimerExpiry slot => Sys2Proof.Machine.execQuietTimerExpiry slot s
  | .identFrame lane identity => Sys2Proof.Machine.execIdentFrame lane identity s
  | .waitingIdentityExpiry => Sys2Proof.Machine.execWaitingIdentityExpiry s
  | .laneKeyCancel lane => Sys2Proof.Machine.execLaneKeyCancel lane s
  | .laneKeyPrint lane => Sys2Proof.Machine.execLaneKeyPrint lane s
  | .requestFrame tag kind args => Sys2Proof.Machine.execRequestFrame tag kind args s
  | .unknownRequest tag kind args => Sys2Proof.Machine.execUnknownRequest tag kind args s
  | .readEntrySettings tag index => Sys2Proof.Machine.execReadEntrySettings tag index s
  | .writeEntrySettings tag index contents => Sys2Proof.Machine.execWriteEntrySettings tag index contents s
  | .readEntryCells tag index => Sys2Proof.Machine.execReadEntryCells tag index s
  | .readEntryDecks tag index => Sys2Proof.Machine.execReadEntryDecks tag index s
  | .readEntryMetro tag index => Sys2Proof.Machine.execReadEntryMetro tag index s
  | .writeEntryMetro tag index contents => Sys2Proof.Machine.execWriteEntryMetro tag index contents s
  | .readEntryClasses tag index => Sys2Proof.Machine.execReadEntryClasses tag index s
  | .writeEntryClasses tag index contents => Sys2Proof.Machine.execWriteEntryClasses tag index contents s
  | .readEntryPermits tag index => Sys2Proof.Machine.execReadEntryPermits tag index s
  | .writeEntryPermits tag index contents => Sys2Proof.Machine.execWriteEntryPermits tag index contents s
  | .readEntryBarred tag index => Sys2Proof.Machine.execReadEntryBarred tag index s
  | .writeEntryBarred tag index contents => Sys2Proof.Machine.execWriteEntryBarred tag index contents s
  | .readEntrySlots tag index => Sys2Proof.Machine.execReadEntrySlots tag index s
  | .readEntryPending tag index => Sys2Proof.Machine.execReadEntryPending tag index s
  | .readEntryAuditlog tag index => Sys2Proof.Machine.execReadEntryAuditlog tag index s
  | .readEntryAuditrun tag index => Sys2Proof.Machine.execReadEntryAuditrun tag index s
  | .readEntryIdentity tag index => Sys2Proof.Machine.execReadEntryIdentity tag index s
  | .setTime tag t => Sys2Proof.Machine.execSetTime tag t s
  | .timeTick => Sys2Proof.Machine.execTimeTick s
  | .zero tag d => Sys2Proof.Machine.execZero tag d s
  | .reIdent tag n identity => Sys2Proof.Machine.execReIdent tag n identity s
  | .abortSlot tag n => Sys2Proof.Machine.execAbortSlot tag n s
  | .clearStrays tag => Sys2Proof.Machine.execClearStrays tag s
  | .finalize tag n kind => Sys2Proof.Machine.execFinalize tag n kind s
  | .ackTickets tag serial => Sys2Proof.Machine.execAckTickets tag serial s
  | .resendTickets tag serial => Sys2Proof.Machine.execResendTickets tag serial s
  | .ackFlags tag cell => Sys2Proof.Machine.execAckFlags tag cell s
  | .auditOpen tag decks => Sys2Proof.Machine.execAuditOpen tag decks s
  | .auditPoint tag d nominal position => Sys2Proof.Machine.execAuditPoint tag d nominal position s
  | .pointTimerExpiry => Sys2Proof.Machine.execPointTimerExpiry s
  | .auditClose tag => Sys2Proof.Machine.execAuditClose tag s
  | .auditCancel tag => Sys2Proof.Machine.execAuditCancel tag s
  | .zeroCells tag d => Sys2Proof.Machine.execZeroCells tag d s
  | .spanFromPoint tag p => Sys2Proof.Machine.execSpanFromPoint tag p s
  | .commit tag => Sys2Proof.Machine.execCommit tag s
  | .logErase tag => Sys2Proof.Machine.execLogErase tag s
  | .serialRestore tag v => Sys2Proof.Machine.execSerialRestore tag v s
  | .reset tag scope => Sys2Proof.Machine.execReset tag scope s
  | .sendResponse => Sys2Proof.Machine.execSendResponse s
  | .sendTicket => Sys2Proof.Machine.execSendTicket s
  | .sendNotice => Sys2Proof.Machine.execSendNotice s
  | .sendWeight => Sys2Proof.Machine.execSendWeight s
  | .recordWriteDone readBack => Sys2Proof.Machine.execRecordWriteDone readBack s
  | .pendingSweep => Sys2Proof.Machine.execPendingSweep s
  | .verificationLapsed => Sys2Proof.Machine.execVerificationLapsed s
  | .switchMoved position => Sys2Proof.Machine.execSwitchMoved position s
  | .writeEntryReadOnlyTable tag table index contents => Sys2Proof.Machine.execWriteEntryReadOnlyTable tag table index contents s
  | .unknownTableName tag kind table index contents => Sys2Proof.Machine.execUnknownTableName tag kind table index contents s

end Sys2Proof.Machine
end

