-- ==== Sys2Proof/WellFormed.lean ====
section
/-! DEFINITION. Which commands the outside world can send: operand values the part's frames and tables allow. -/

namespace Sys2Proof

/-- The most characters the arguments of a REQUEST may have: a length of 512 less the kind, the tag and the request
kind (R198, R201). -/
def maxArgs : Nat := 509

/-- A deck number some bridge has (00_scope.md 4). -/
def deckExists (d : Nat) : Bool := decide (d < 6)

/-- Contents of a WRITE-ENTRY that fit in a frame beside the table and the index (R198, R201). -/
def contentsFit (contents : List Byte) : Bool := decide (contents.length + 3 ≤ maxArgs)

/-- A table code whose table cannot be written: CELLS, DECKS, SLOTS, PENDING, AUDITLOG, AUDITRUN, IDENTITY (R188). -/
def refusesWrites (table : Byte) : Bool := [1, 2, 7, 8, 9, 10, 11].contains table.toNat

/-- The command is one its row can stand for. -/
def Instr.wellFormed : Instr → Bool
  | .powerUp _ => true
  | .powerLoss _ => true
  | .framePause _ _ => true
  | .badFrame _ _ => true
  | .cellFrame _ _ _ _ _ _ => true
  | .scanTimerExpiry => true
  | .sendScan => true
  | .sendSignal => true
  | .zeroSettleExpiry d => deckExists d
  | .zeroIntervalExpiry d => deckExists d
  | .reportDelayExpiry d => deckExists d
  | .maximumIntervalExpiry d => deckExists d
  | .axleFrame _ _ _ _ => true
  | .quietTimerExpiry _ => true
  | .identFrame _ _ => true
  | .waitingIdentityExpiry => true
  | .laneKeyCancel _ => true
  | .laneKeyPrint _ => true
  | .requestFrame _ _ args => decide (args.length ≤ maxArgs)
  | .unknownRequest _ _ args => decide (args.length ≤ maxArgs)
  | .readEntrySettings _ _ => true
  | .writeEntrySettings _ _ c => contentsFit c
  | .readEntryCells _ _ => true
  | .readEntryDecks _ _ => true
  | .readEntryMetro _ _ => true
  | .writeEntryMetro _ _ c => contentsFit c
  | .readEntryClasses _ _ => true
  | .writeEntryClasses _ _ c => contentsFit c
  | .readEntryPermits _ _ => true
  | .writeEntryPermits _ _ c => contentsFit c
  | .readEntryBarred _ _ => true
  | .writeEntryBarred _ _ c => contentsFit c
  | .readEntrySlots _ _ => true
  | .readEntryPending _ _ => true
  | .readEntryAuditlog _ _ => true
  | .readEntryAuditrun _ _ => true
  | .readEntryIdentity _ _ => true
  | .setTime _ _ => true
  | .timeTick => true
  | .zero _ _ => true
  | .reIdent _ _ _ => true
  | .abortSlot _ _ => true
  | .clearStrays _ => true
  | .finalize _ _ _ => true
  | .ackTickets _ _ => true
  | .resendTickets _ _ => true
  | .ackFlags _ _ => true
  | .auditOpen _ decks => decide (decks.length ≤ 255)
  | .auditPoint _ _ _ _ => true
  | .pointTimerExpiry => true
  | .auditClose _ => true
  | .auditCancel _ => true
  | .zeroCells _ _ => true
  | .spanFromPoint _ _ => true
  | .commit _ => true
  | .logErase _ => true
  | .serialRestore _ _ => true
  | .reset _ _ => true
  | .sendResponse => true
  | .sendTicket => true
  | .sendNotice => true
  | .sendWeight => true
  | .recordWriteDone _ => true
  | .pendingSweep => true
  | .verificationLapsed => true
  | .switchMoved _ => true
  | .writeEntryReadOnlyTable _ t _ c => refusesWrites t && contentsFit c
  | .unknownTableName _ k t _ c =>
    decide (12 ≤ t.toNat) && decide (k.toNat ≤ 1) && contentsFit c && (k != 0 || c.isEmpty)

end Sys2Proof
end

