-- ==== Sys2Proof/Safety.lean ====
section
/-! DEFINITION. What counts as a safe state and a safe run, what a command may touch, and the shapes the statements use. -/

namespace Sys2Proof.Machine

/-! ### Invariants -/

/-- The gatehouse port's queues hold no more than their places, and the fairness count stays within its range (R186,
R192, R193). -/
structure State.QueuesBounded (s : State) : Prop where
  requests : s.gpt.requests.length ≤ 4
  responses : s.gpt.responses.length ≤ 4
  notices : s.gpt.notices.length ≤ 8
  fairness : s.gpt.fairness ≤ 8

/-- Records held plus reservations do not exceed the ring's 64 places (R122). -/
def State.RingBounded (s : State) : Prop := s.tku.ring.length + s.reservations ≤ 64

/-- At most one job of each originator stands in the store job queue (R133). -/
def State.OneJobEach (s : State) : Prop := (s.mst.jobs.map Job.origin).Nodup

/-- No identity is attached to both slots (R79). -/
def State.IdentitiesApart (s : State) : Prop :=
  ∀ i, s.slc.slot0.identity = some i → s.slc.slot1.identity ≠ some i

/-- Along the bridge line, front to rear, deck numbers do not rise, and every entry stands on a deck there is (R50). -/
structure State.LineOrdered (s : State) : Prop where
  falling : s.axt.line.Pairwise fun x y => y.deck ≤ x.deck
  onBridge : ∀ x ∈ s.axt.line, x.deck < s.decks.length

/-- The log entry of the job being written carries the counter plus one (R134, R163). -/
def State.EntryNext (s : State) : Prop :=
  ∀ r e, s.mst.running = some r → r.entry = some e → e.counter = s.cal.counter + 1

/-- SPAN_BREACH and INTRUDED stand exactly while their conditions hold (R72). -/
def State.MarksTrue (s : State) : Prop :=
  ∀ u, (s.slot u).spanBreach = (s.breachDeck u).isSome ∧ (s.slot u).intruded = s.intrudedNow u

/-- A lane node whose signal mark is clear was last sent its present aspect (R87). -/
structure State.LanesTold (s : State) : Prop where
  entry : s.fpt.entryMark = false → s.fpt.entrySent = some s.entryAspect
  exit : s.fpt.exitMark = false → s.fpt.exitSent = some s.exitAspect

/-- Standing of a check by slot state: none while FREE or MOVING, CURRENT while POSITIONED, never CURRENT while ISSUING
or LEAVING (R92). -/
def State.ChecksStand (s : State) : Prop :=
  ∀ u, match (s.slot u).state with
    | .free => (s.slot u).check = .none
    | .moving => (s.slot u).check = .none
    | .positioned => ∃ c, (s.slot u).check = .current c
    | .issuing => ∀ c, (s.slot u).check ≠ .current c
    | .leaving => ∀ c, (s.slot u).check ≠ .current c

/-- The names of the axles on the bridge line are all different, and below the name the next axle takes. -/
structure State.NamesFresh (s : State) : Prop where
  apart : (s.axt.line.filterMap (·.owner.name?)).Nodup
  below : ∀ n ∈ s.axt.line.filterMap (·.owner.name?), n < s.axt.nextAxle

/-- A FREE slot has no axle on the line, a slot without an axle claims no deck, and while a COMMIT waits the commit mark
stands and both slots are FREE (R65, R71, R74, R157). -/
structure State.SlotsGrounded (s : State) : Prop where
  free : ∀ u, (s.slot u).state = .free → s.hasAxles u = false
  claims : ∀ u, s.hasAxles u = false → s.runOf u = []
  commit : s.commitQueued = true → s.slc.commitMark = true ∧ ∀ u, (s.slot u).state = .free

/-- There is a deck, and every set that a load or a commit may make the active one has one (R149). -/
structure State.DecksThere (s : State) : Prop where
  decks : s.decks ≠ []
  working : 1 ≤ s.cal.working.n
  stored : 1 ≤ s.mst.store.set.contents.n
  written : ∀ r m, s.mst.running = some r → .set m ∈ r.writes → 1 ≤ m.n

/-- A metrological set within R149's counts: one to six decks, each with its Max, and cells of node addresses of their
own, 1 to 63, with no more than four breakpoints. -/
structure SetSound (m : MetroSet) : Prop where
  decks : 1 ≤ m.n ∧ m.n ≤ 6
  maxes : m.maxes.length = m.n
  nodes : (m.cellList.map (·.node)).Nodup
  cells : ∀ c ∈ m.cellList, 1 ≤ c.node ∧ c.node ≤ 63 ∧ c.breaks.length ≤ 4

/-- Every set the part holds, stores or writes is within R149's counts. -/
structure State.SetsSound (s : State) : Prop where
  working : SetSound s.cal.working
  active : ∀ a, s.cal.active = some a → SetSound a
  stored : SetSound s.mst.store.set.contents
  written : ∀ r m, s.mst.running = some r → .set m ∈ r.writes → SetSound m

/-- A job is being written exactly while one is queued (R133). -/
def State.FrontWritten (s : State) : Prop := s.mst.running = none ↔ s.mst.jobs = []

/-- What R35's settle timer of deck `d`, whose record is `k`, runs on, but for the checked mark. -/
def State.SettleRuns (s : State) (d : Nat) (k : Deck) : Prop :=
  k.zero ≠ none ∧ k.fault = none ∧ k.motion = .stable ∧ s.axleFree d = true ∧ s.claimOf d ≠ .audit

/-- No settle timer runs but while its conditions hold, and a checked mark stands only on a deck that is STABLE and
axle-free (R35). -/
def State.SettleHeld (s : State) : Prop :=
  ∀ (d : Nat) (k : Deck), s.decks[d]? = some k →
    (k.settle ≠ none → s.SettleRuns d k ∧ k.checked = false) ∧
    (k.checked = true → k.motion = .stable ∧ s.axleFree d = true)

/-! ### Outcomes -/

/-- The outcome is a next state that `P` holds of. -/
def Ends (o : Host.Outcome State Fault Refusal) (P : State → Prop) : Prop := ∃ t, o = .next t ∧ P t

/-- A run never stops: every number of steps answers a next state. -/
def State.RunsOn (s : State) : Prop := ∀ n, ∃ t, Sys2Proof.core.run n s = .next t

/-- From `s` to `t` the front request left its queue and its answer joined the response queue (R186, R187). -/
structure Replied (s t : State) (r : Request) (status : Status) (body : List Byte) : Prop where
  taken : t.gpt.requests = s.gpt.requests.tail
  placed : t.gpt.responses =
    s.gpt.responses ++ [{ tag := r.tag, kind := r.kind, status := status, body := body }]

/-- A notice raised now stands in the queue of `t`, unless the overflow mark says that one was dropped (R192). -/
def Noticed (s t : State) (n : Notice) : Prop :=
  t.gpt.overflow = false → { time := s.gpt.time, notice := n } ∈ t.gpt.notices

/-- The bridge line as owners and decks: the slot of each entry, none for a stray, and its deck (R50). -/
def State.lineShape (s : State) : List (Option SlotId × Nat) := s.axt.line.map fun x => (x.owner.slot?, x.deck)

/-- What the scan controller needs to accept a CELL reply of cell `i`, whose record is `c` (R4), that arrives while the
field port holds no part-assembled frame. -/
def ReplyAccepted (s : State) (node scan : Byte) (i : Nat) (c : Cell) : Prop :=
  s.powered = true ∧ s.fpt.inward.rx = [] ∧
    s.cells.findIdx? (fun c => c.const.node == node.toNat) = some i ∧ s.cells[i]? = some c ∧
    s.scn.isOpen = true ∧ scan = s.scn.number ∧ c.entry = .notReplied

/-- The record of every cell but `i` is as it was, but for its raw window, which a restart of its deck empties (R32). -/
def OtherCellsKept (s t : State) (i : Nat) : Prop :=
  ∀ j, j ≠ i → (t.cells[j]?).map (fun c => { c with window := [] }) = (s.cells[j]?).map fun c => { c with window := [] }

/-- The condition of a (kind, threshold) pair is present for a value: above a high threshold, below a low one (R20). -/
def Beyond (s : State) (k : Monitor) (h : Threshold) (v : Int) : Prop :=
  let at' := s.setting (23 + flagPlace k h)
  match h with
  | .highAlarm => at' < v
  | .highWarning => at' < v
  | .lowWarning => v < at'
  | .lowAlarm => v < at'

/-- The flags of cell `i` after its monitors took the values `taken` gives: a flag is set when it was, or when its
condition is present; one newly set is noticed unless masked; and SUSPECT and WARN follow the flags (R21, R23). -/
def FlagsLatched (s t : State) (i : Nat) (c c' : Cell) (taken : Monitor → Option Int) : Prop :=
  (∀ (k : Monitor) (h : Threshold) f, c.flags[flagPlace k h]? = some f → ∃ f', c'.flags[flagPlace k h]? = some f' ∧
    (f' = true ↔ f = true ∨ ∃ v, taken k = some v ∧ Beyond s k h v) ∧
    (∀ v, f = false → taken k = some v → Beyond s k h v → s.setting (35 + flagPlace k h) = 0 →
      Noticed s t (.cellFlag i c.const.node k h v))) ∧
  (c'.suspect = true ↔ ∃ (k : Monitor) (h : Threshold), (h = .highAlarm ∨ h = .lowAlarm) ∧
    c'.flags[flagPlace k h]? = some true) ∧
  (c'.warn = true ↔ ∃ (k : Monitor) (h : Threshold), (h = .highWarning ∨ h = .lowWarning) ∧
    c'.flags[flagPlace k h]? = some true)

/-- Deck `d`, whose record was `k`, is in FAULT with reason CELL with its windows restarted, its cells' raw windows among
them; its zero and zero status stand (R28, R32). -/
def DeckRestarted (t : State) (d : Nat) (k : Deck) : Prop :=
  (∃ k' : Deck, t.decks[d]? = some k' ∧ k'.fault = some .cell ∧ k'.filter = [] ∧ k'.motionWin = [] ∧ k'.w = none ∧
    k'.motion = .moving ∧ k'.settle = none ∧ k'.checked = false ∧ k'.zero = k.zero ∧ k'.zeroStatus = k.zeroStatus ∧
    k'.interval = k.interval) ∧
  ∀ (j : Nat) (x : Cell), t.cells[j]? = some x → x.const.deck = d → x.window = []

/-- A reply of cell `i` of deck `d` is the last the deck's scan waits for, and the scan is not abandoned (R26, R42). -/
def CompletesScan (s : State) (i d : Nat) : Prop :=
  (∀ (j : Nat) (x : Cell), s.cells[j]? = some x → j ≠ i → x.const.deck = d → x.entry ≠ .notReplied) ∧
  ∀ k, s.decks[d]? = some k → k.scanLost = false

/-- Another cell of deck `d` than `i` replied FAULTED. -/
def OthersFaulted (s : State) (i d : Nat) : Prop :=
  ∃ (j : Nat) (x : Cell), s.cells[j]? = some x ∧ j ≠ i ∧ x.const.deck = d ∧ x.entry = .faulted

/-- A deck record less what an operation's end judges: settle timer, checked mark, report mark and delay timer. -/
def Deck.measured (k : Deck) : Deck := { k with settle := none, checked := false, reportMark := false, delay := none }

/-- A slot less what an operation's end judges: SPAN_BREACH, INTRUDED and its check. -/
def Slot.held (v : Slot) : Slot := { v with spanBreach := false, intruded := false, check := .none }

/-! ### Shapes of single statements -/

/-- The zero settings of every deck but `d` are as they were. -/
def OtherZerosKept (s t : State) (d : Nat) : Prop :=
  ∀ j, j ≠ d → (t.decks[j]?).map (fun k => (k.zero, k.zeroStatus, k.interval)) =
    (s.decks[j]?).map fun k => (k.zero, k.zeroStatus, k.interval)

/-- An axle of slot `u` can join: its list holds fewer than 12, or it holds fewer than 8 overflow entries (R54, R63). -/
def JoinsLine (s : State) (u : SlotId) : Prop := (s.axleList u).length < 12 ∨ s.overflowCount u < 8

/-- An untracked crossing of deck `d` is counted: as audit traffic where the audit run claims the deck, else among the
deck's untracked crossings (R57, R170). -/
def UntrackedCounted (s t : State) (d : Nat) : Prop :=
  (s.claimOf d = .audit → t.axt.untracked = s.axt.untracked ∧
    t.aud = { s.aud with traffic :=
      (s.aud.decks.zip s.aud.traffic).map fun p => if p.1 = d then min (p.2 + 1) 65535 else p.2 }) ∧
  (s.claimOf d ≠ .audit → t.aud = s.aud ∧ ∀ j, t.axt.untracked[j]? =
    (s.axt.untracked[j]?).map fun n => if j = d then min (n + 1) 65535 else n)

/-- The place in the bridge line of the entry a crossing at boundary `b` moves or takes off, none where it brings an axle
on or finds its source deck empty (R53 to R56). -/
def State.crossingMover (s : State) (b : Nat) (forward : Bool) : Option Nat :=
  if forward then (if b = 0 then none else s.frontOn (b - 1))
  else if b = 0 then s.leaverAtEntry
  else if b = s.decks.length then none
  else s.rearOn b

/-- The deck a crossing at boundary `b` brings its axle onto, none off the bridge. -/
def State.crossingReach (s : State) (b : Nat) (forward : Bool) : Option Nat :=
  if forward then (if b < s.decks.length then some b else none) else if b = 0 then none else some (b - 1)

/-- A crossing at boundary `b` leaves listed axle `x` in slot `u`'s list: one that it moved on the bridge, or the one it
added, which takes the next name (R54, R56, R59). -/
def CrossingLeaves (s : State) (b : Nat) (forward : Bool) (u : SlotId) (x : Nat) : Prop :=
  (∃ i a d g, s.crossingMover b forward = some i ∧ s.axt.line[i]? = some { owner := .listed u a, deck := d } ∧
    s.crossingReach b forward = some g ∧ x = a.name) ∨
  (x = s.axt.nextAxle ∧ (s.axleList u).length < 12 ∧
    (forward = true ∧ b = 0 ∧ (s.claimOf 0 = .slot u ∨ s.claimOf 0 = .none ∧ s.openAnswer = .opened u) ∨
      forward = false ∧ 1 ≤ b ∧ b = s.decks.length ∧ s.claimOf (b - 1) = .slot u))

/-- A crossing at boundary `b` moves an axle of slot `u`: one that stands on the line, or one that joins the slot that
claims the deck it comes onto (R54, R56). -/
def MovesAxleOf (s : State) (b : Nat) (forward : Bool) (u : SlotId) : Prop :=
  (∃ i x, s.crossingMover b forward = some i ∧ s.axt.line[i]? = some x ∧ x.owner.slot? = some u) ∨
  (JoinsLine s u ∧ (forward = true ∧ b = 0 ∧ s.claimOf 0 = .slot u ∨
    forward = false ∧ 1 ≤ b ∧ b = s.decks.length ∧ s.claimOf (b - 1) = .slot u))

/-- Deck `d` is claimable by slot `u` (R65). -/
structure Claimable (s : State) (u : SlotId) (d : Nat) : Prop where
  there : d < s.slc.claims.length
  unclaimed : s.claimOf d = .none
  tracked : ∀ k, s.decks[d]? = some k → k.untracked = false
  noStray : s.strayCount d = 0
  noCommit : s.slc.commitMark = false
  beside : (∀ x, s.claimOf x ≠ .slot u) ∨ ∃ x, s.claimOf x = .slot u ∧
    (d + 1 = x ∧ (∀ y, s.claimOf y = .slot u → x ≤ y) ∨ d = x + 1 ∧ ∀ y, s.claimOf y = .slot u → y ≤ x)

/-- The two aspects: R85, and the first line of R86's table that applies. -/
structure AspectsAre (s : State) (entry exit : Aspect) : Prop where
  enter : entry = .enter ↔ (∃ u, (s.slot u).state = .free) ∧ 0 < s.slc.claims.length ∧ s.claimOf 0 = .none ∧
    s.strayCount 0 = 0 ∧ (∀ k, s.decks[0]? = some k → k.untracked = false) ∧ s.slc.commitMark = false
  stop : entry ≠ .enter → entry = .stop
  noSlot : (∀ u, s.claimOf (s.slc.claims.length - 1) ≠ .slot u) → exit = .hold
  slot : ∀ u, s.claimOf (s.slc.claims.length - 1) = .slot u →
    let v := s.slot u
    let office := v.barred = true ∨ v.overHeld = true
    let reposition := v.spanBreach = true ∨ ∃ c, (v.check = .current c ∨ v.check = .frozen c) ∧
      c.overall = .indeterminate ∧ .sharedDeck ∈ c.reasons
    (v.state = .leaving → exit = .go) ∧ (v.state ≠ .leaving → office → exit = .seeOffice) ∧
      (v.state ≠ .leaving → ¬office → reposition → exit = .reposition) ∧
      (v.state ≠ .leaving → ¬office → ¬reposition → exit = .hold)

/-- Deck `d` is the front-most one on which slot `u` has an axle without a claim (R72). -/
def BreachesOn (s : State) (u : SlotId) (d : Nat) : Prop :=
  ∃ pre x post, s.axt.line = pre ++ x :: post ∧ x.owner.slot? = some u ∧ x.deck = d ∧ s.claimOf d ≠ .slot u ∧
    ∀ y ∈ pre, y.owner.slot? = some u → s.claimOf y.deck = .slot u

/-- The cause found on deck `d`, the first that holds of R72's table; NOT_ADJACENT also where none of its conditions does
(notes/assumptions/16). -/
def BreachCauseIs (s : State) (d : Nat) : BreachCause → Prop :=
  let untracked := ∃ k, s.decks[d]? = some k ∧ k.untracked = true
  fun
  | .slot0 => s.claimOf d = .slot .slot0
  | .slot1 => s.claimOf d = .slot .slot1
  | .audit => s.claimOf d = .audit
  | .untracked => s.claimOf d = .none ∧ untracked
  | .strays => s.claimOf d = .none ∧ ¬untracked ∧ 0 < s.strayCount d
  | .notAdjacent => s.claimOf d = .none ∧ ¬untracked ∧ s.strayCount d = 0

/-- From `s` to `t` one of R92's events came to slot `u`: it entered POSITIONED, its run or its identity changed, or the
motion, the axle count or the stray count of a deck of its run. That an event is one that shows between the two states is
the model's inference (notes/assumptions/13, 29). -/
def CheckEvent (s t : State) (u : SlotId) : Prop :=
  let stable := fun (x : State) d => ∃ k, x.decks[d]? = some k ∧ k.motion = .stable
  (s.slot u).state ≠ .positioned ∨ (s.slot u).identity ≠ (t.slot u).identity ∨
    (∃ d, ¬(s.claimOf d = .slot u ↔ t.claimOf d = .slot u)) ∨
    ∃ d, t.claimOf d = .slot u ∧
      (¬(stable s d ↔ stable t d) ∨ s.axleCount d ≠ t.axleCount d ∨ s.strayCount d ≠ t.strayCount d)

/-- Entry `e` is the first of the class table that `P` holds of (R93). -/
def FirstClass (s : State) (P : ClassEntry → Prop) (e : ClassEntry) : Prop :=
  ∃ i : Nat, s.classes[i]? = some (some e) ∧ P e ∧ ∀ (j : Nat) x, j < i → s.classes[j]? = some (some x) → ¬P x

/-- The load of a run of decks, or the reason why it has none: R96 of a group's run, R97 of a slot's. -/
def LoadIs (s : State) (run : List Nat) (load : Option Int) (reason : Option CheckReason) : Prop :=
  let noGross := ∃ d ∈ run, ∀ k, s.decks[d]? = some k → k.gross = none
  let moving := ∃ d ∈ run, ∀ k, s.decks[d]? = some k → k.motion ≠ .stable
  let total := saturate (run.map fun d => (s.decks[d]?.bind Deck.gross).getD 0).sum
  let rounded := roundDiv total s.division * s.division
  (noGross → load = none ∧ reason = some .noGross) ∧
  (¬noGross → moving → load = none ∧ reason = some .moving) ∧
  (¬noGross → ¬moving → reason = none ∧ ∃ x, load = some x ∧
    (|rounded| ≤ 2147483647 → x = rounded) ∧
    (2147483647 < rounded → s.division ∣ x ∧ x ≤ 2147483647 ∧ 2147483647 < x + s.division) ∧
    (rounded < -2147483647 → s.division ∣ x ∧ -2147483647 ≤ x ∧ x - s.division < -2147483647))

/-- An entry of the group list laid against the detected group `axles` of slot `u`, whose first axle stands at position
`first`: its axles and decks, and its load or its reason (R94 to R96). -/
def GroupIs (s : State) (u : SlotId) (first : Nat) (axles : List (AxleRec × Nat)) (g : CheckGroup) : Prop :=
  g.axles = some (first, first + axles.length - 1) ∧
  ∃ lo hi, g.decks = some (lo, hi) ∧ (∃ a ∈ axles, a.2 = lo) ∧ (∃ a ∈ axles, a.2 = hi) ∧
    (∀ a ∈ axles, lo ≤ a.2 ∧ a.2 ≤ hi) ∧
    let unclaimed := ∃ d, lo ≤ d ∧ d ≤ hi ∧ s.claimOf d ≠ .slot u
    let shared := ∃ x ∈ s.axt.line, lo ≤ x.deck ∧ x.deck ≤ hi ∧
      ∀ a, x.owner = .listed u a → ∀ b ∈ axles, b.1.name ≠ a.name
    (unclaimed → g.load = none ∧ g.reason = some .unclaimed) ∧
    (¬unclaimed → shared → g.load = none ∧ g.reason = some .sharedDeck) ∧
    (¬unclaimed → ¬shared → LoadIs s (List.range' lo (hi + 1 - lo)) g.load g.reason)

/-- The record of the listed axle of that name on the bridge line. -/
def State.axleNamed (s : State) (name : Nat) : Option AxleRec :=
  (s.axt.line.filterMap fun x => match x.owner with
    | .listed _ a => some a
    | _ => none).find? fun a => a.name == name

/-- The crossing at boundary `b` from `s` to `t`, of that direction, suspect standing and duration, measures `v` mm for
the axle `rear` of slot `u`'s list: the boundary's last-crossing records before and after it hold two axles that stand one
behind the other, `rear` the rear one, and R60's other conditions hold. -/
def SpacingMeasured (s t : State) (b : Nat) (tA : BitVec 32) (forward suspect : Bool) (duration : Nat) (u : SlotId)
    (rear v : Nat) : Prop :=
  ∃ p q x y pre post, s.axt.last[b]? = some (some p) ∧ t.axt.last[b]? = some (some q) ∧
    p.axle = some (u, y) ∧ q.axle = some (u, x) ∧ (p.dir = .forward ↔ forward = true) ∧ p.suspect = false ∧
    suspect = false ∧
    (if forward = true
      then (t.axleList u).map (·.1.name) = pre ++ y :: x :: post ∧ rear = x
      else (t.axleList u).map (·.1.name) = pre ++ x :: y :: post ∧ rear = y) ∧
    let apart := (tA.toNat + 4294967296 - p.tA.toNat) % 4294967296
    1 ≤ apart ∧ apart ≤ 60000000 ∧
      (v : Int) = roundDiv ((s.setting (9 + b)).toNat * 2 * apart) (p.duration + duration) ∧ v ≤ 65535

/-- The rest of a slot context, when only its state and its quiet timer are at stake. -/
def SameIdentity (v v' : Slot) : Prop := v'.identity = v.identity ∧ v'.permit = v.permit ∧ v'.barred = v.barred

/-- Slot `u`'s transaction is ended: LEAVING, without identity, BARRED or OVER_HELD, its claims and axles kept (R83). -/
def TransactionEnded (s t : State) (u : SlotId) : Prop :=
  (t.slot u).state = .leaving ∧ (t.slot u).identity = none ∧ (t.slot u).permit = none ∧ (t.slot u).barred = false ∧
    (t.slot u).overHeld = false ∧ (t.slot u).quietTimer = (s.slot u).quietTimer ∧
    (t.slot (otherSlot u)).held = (s.slot (otherSlot u)).held ∧ t.slc.claims = s.slc.claims ∧ t.axt = s.axt

/-- A load judged against a limit under a tolerance in 0.1%: the table of R98. -/
def verdictUnder (limit tolerance load : Int) : Verdict :=
  if load ≤ limit then .pass else if load ≤ limit + limit * tolerance / 1000 then .tolerated else .over

/-- `rs` is the set of the reasons that hold, each named once. -/
structure ReasonsAre (rs : List Reason) (holds : Reason → Prop) : Prop where
  once : rs.Nodup
  those : ∀ r, r ∈ rs ↔ holds r

/-- A TARE-OUT or a sweep job is removing the pending entry (R119, R120). -/
def BeingRemoved (s : State) (p : PendingEntry) : Prop :=
  (∃ c, .ticket c ∈ s.mst.jobs ∧ c.pendingRec = some p.recNo) ∨ ∃ ns, .housekeeping ns ∈ s.mst.jobs ∧ p.recNo ∈ ns

/-- A usable pending entry for slot `u`'s identity (R119). -/
def UsableFor (s : State) (u : SlotId) (p : PendingEntry) : Prop :=
  p ∈ s.tku.pending ∧ (s.slot u).identity = some p.inbound.identity ∧ ¬BeingRemoved s p

/-- The slot's permit index names that entry (R77). -/
def HasPermit (s : State) (u : SlotId) (q : Permit) : Prop :=
  ∃ i, (s.slot u).permit = some i ∧ s.slc.permits[i]? = some q

/-- A tare of that time is within the tare validity (R121). -/
def TareWithin (s : State) (now time : Nat) : Prop := time ≤ now ∧ now - time ≤ (s.setting 20).toNat * 86400

/-- When each reason of R107 to R111 holds for a finalization of slot `u` of kind `k`, judged on check `c`. -/
def FinalizeReason (s : State) (u : SlotId) (k : TicketKind) (c : Check) (r : Reason) : Prop :=
  let onRun := fun (P : Nat → Deck → Prop) => ∃ d x, d ∈ s.runOf u ∧ s.decks[d]? = some x ∧ P d x
  let limit := ((s.runOf u).map s.deckMax).sum + 9 * s.division
  match r with
  | .timeUnset => s.gpt.time = none
  | .barred => (s.slot u).barred = true
  | .spanBreach => (s.slot u).spanBreach = true
  | .intruded => (s.slot u).intruded = true
  | .ringFull => 64 ≤ s.tku.ring.length + s.reservations
  | .deckMoving => onRun fun _ x => x.motion ≠ .stable
  | .deckCondition => onRun fun d x => x.fault ≠ none ∨ x.zero = none ∨
      ∃ g, x.gross = some g ∧ (s.deckMax d + 9 * s.division < g ∨ g < -20 * s.division)
  | .zeroStale => onRun fun _ x => x.zeroStatus = .stale
  | .deckSuspect => ∃ d x, d ∈ s.runOf u ∧ x ∈ s.cells ∧ x.const.deck = d ∧ x.suspect = true
  | .unverified => ∃ d, d ∈ s.runOf u ∧ (s.standingOf d = .unverified ∨ s.standingOf d = .failed ∨
      ∃ expiry now, s.standingOf d = .verified expiry ∧ s.gpt.time = some now ∧ expiry ≤ now)
  | .minGross => c.gross = none ∨ ∃ g, c.gross = some g ∧ g < 20 * s.division
  | .overCapacity => ∃ g, c.gross = some g ∧ limit < g
  | .noIdentity => k = .grossIn ∧ (s.slot u).identity = none
  | .pendingExists => k = .grossIn ∧ ∃ i, (s.slot u).identity = some i ∧
      ((∃ p ∈ s.tku.pending, p.inbound.identity = i) ∨
        ∃ x, .ticket x ∈ s.mst.jobs ∧ x.kind = .grossIn ∧ x.identity = some i)
  | .pendingFull => k = .grossIn ∧ 48 ≤ s.tku.pending.length + (s.mst.jobs.filter fun j => match j with
      | .ticket x => decide (x.kind = .grossIn) && x.identity.isSome
      | _ => false).length
  | .negativeNet =>
      (k = .tareOut ∧ ∃ p g, s.slotPending u = some p ∧ c.gross = some g ∧ p.inbound.gross - g < 0) ∨
      (k = .storedNet ∧ ∃ q x g, HasPermit s u q ∧ q.tare = some x ∧ c.gross = some g ∧ g - (x.1 : Int) < 0)
  | .firstPass => k = .tareOut ∧ ∃ p, s.slotPending u = some p ∧
      (¬s.division ∣ p.inbound.gross ∨ limit < p.inbound.gross)
  | .noPermit => (k = .storedNet ∧ ∀ q, ¬HasPermit s u q) ∨ (k = .tareRefresh ∧ (s.slot u).permit = none)
  | .noTare => k = .storedNet ∧ ∃ q, HasPermit s u q ∧ q.tare = none
  | .tareExpired => k = .storedNet ∧ ∃ q x now, HasPermit s u q ∧ q.tare = some x ∧ s.gpt.time = some now ∧
      ¬TareWithin s now x.2
  | .tareDivision => k = .storedNet ∧ ∃ q x, HasPermit s u q ∧ q.tare = some x ∧ ¬s.division ∣ (x.1 : Int)
  | .holdOnOver => (k = .grossIn ∨ k = .storedNet ∨ k = .spot) ∧ c.overall = .over ∧ c.hold = true
  | _ => False

/-- A finalization of slot `u` passes lines 2 to 9 of R105: `k` is the kind as resolved, and none of R107 to R111
refuses it. -/
structure FinalizeReady (s : State) (u : SlotId) (asked : Option TicketKind) (k : TicketKind) : Prop where
  mode : s.cal.mode = .normal
  store : s.mst.storeFault = false
  serials : ∃ n, s.tku.serials = some n ∧ n.issued < max32
  free : s.jobQueued (.slot u) = false
  positioned : (s.slot u).state = .positioned
  kind : k = asked.getD ((s.refreshCheck u).resolveAuto u)
  found : k = .tareOut → (s.slotPending u).isSome = true
  reasons : (s.refreshCheck u).finalizeReasons u k (s.computeCheck u) = []

/-- RING_LOW after one reservation more: raised where the unreserved free count falls from the threshold plus one to the
threshold, and else not (R127). -/
def RingLowJudged (s t : State) : Prop :=
  (s.ringFree = s.ringLow + 1 → Noticed s t (.ringLow s.ringLow)) ∧
  (s.ringFree ≠ s.ringLow + 1 → ∀ x ∈ t.gpt.notices, (∃ n, x.notice = .ringLow n) → x ∈ s.gpt.notices)

/-- A finalization accepted: the slot is ISSUING with its check frozen, and a ticket job with its capture joins the rear
of the store job queue, the weights by kind as R118 sets them (R70, R112, R113). -/
def FinalizeTaken (s t : State) (u : SlotId) (k : TicketKind) : Prop :=
  (t.slot u).state = .issuing ∧ (t.slot u).overHeld = false ∧ (t.slot u).check = .frozen (s.computeCheck u) ∧
  SameIdentity (s.slot u) (t.slot u) ∧ t.reservations = s.reservations + 1 ∧
  ∃ c : Capture, t.mst.jobs = s.mst.jobs ++ [.ticket c] ∧ c.kind = k ∧ c.slot = u ∧
    c.identity = (s.slot u).identity ∧ c.permit = (s.slot u).permit ∧ c.check = s.computeCheck u ∧
    c.decks = (s.runOf u).map (fun d => (d, (s.decks[d]?.bind s.roundedGross).getD 0)) ∧
    c.warn = (s.runOf u).any s.deckWarn ∧
    (c.tolerated = true ↔ (∃ g ∈ (s.computeCheck u).groups, g.verdict = .tolerated) ∨
      (s.computeCheck u).grossVerdict = some .tolerated) ∧
    ∀ g, (s.computeCheck u).gross = some g →
      (k = .grossIn ∨ k = .tareRefresh ∨ k = .spot →
        c.gross = g ∧ c.tare = none ∧ c.net = none ∧ c.source = .none ∧ c.pendingRec = none) ∧
      (∀ p, k = .tareOut → s.slotPending u = some p →
        c.gross = p.inbound.gross ∧ c.tare = some g ∧ c.net = some (p.inbound.gross - g) ∧
        c.source = .pass p.inbound.serial ∧ c.pendingRec = some p.recNo) ∧
      (∀ q x, k = .storedNet → s.slotPermit u = some q → q.tare = some x →
        c.gross = g ∧ c.tare = some (x.1 : Int) ∧ c.net = some (g - x.1) ∧ c.source = .stored x.2)

/-- When each reason both adjustments share holds for deck `d` (R154). -/
def RunReason (s : State) (d : Nat) : Reason → Prop
  | .noRun => ¬((s.aud.run = .opened ∨ s.aud.run = .waiting) ∧ s.claimOf d = .audit)
  | .layout => ¬∀ v, (∃ c ∈ s.cal.working.cellList, c.node = v ∧ c.deck = d) ↔
      ∃ a, s.cal.active = some a ∧ ∃ c ∈ a.cellList, c.node = v ∧ c.deck = d
  | _ => False

/-- When each reason of ZERO-CELLS holds (R155). -/
def ZeroCellsReason (s : State) (d : Nat) : Reason → Prop
  | .pointWaiting => ∃ p ∈ s.aud.points, p.state = .waiting
  | .moving => ∀ k, s.decks[d]? = some k → k.motion ≠ .stable
  | .fault => (∃ k, s.decks[d]? = some k ∧ k.fault ≠ none) ∨ ∃ c ∈ s.cells, c.const.deck = d ∧ c.fault ≠ none
  | .window => ∃ c ∈ s.cells, c.const.deck = d ∧ c.window.length < s.filterLen
  | .noCells => ∀ c ∈ s.cells, c.const.deck ≠ d
  | r => RunReason s d r

/-- When each reason of SPAN-FROM-POINT holds for a point (R156). -/
def SpanReason (s : State) (p : Point) : Reason → Prop
  | .notCaptured => p.indication = none
  | .position => p.position ≠ 0
  | .nominal => p.nominal = 0
  | r => RunReason s p.deck r

/-- When a set fails each consistency condition of R158. -/
def SetFails (m : MetroSet) : Reason → Prop
  | .ratio => ∃ d v, d < m.n ∧ m.maxes[d]? = some v ∧ (v < 500 * m.e ∨ 10000 * m.e < v)
  | .cellDeck => ∃ c ∈ m.cellList, m.n ≤ c.deck
  | .deckCells => ∃ d, d ≤ 5 ∧ 8 < (m.cellList.filter fun c => c.deck == d).length
  | .breakpoint => ∃ c ∈ m.cellList, ∃ b v, c.breaks.getLast? = some b ∧ m.maxes[c.deck]? = some v ∧ v < b.1
  | _ => False

/-- A cell entry's values are within the ranges of R149. -/
def CellWithin (c : CellConst) : Prop :=
  1 ≤ c.node ∧ c.node ≤ 63 ∧ c.deck ≤ 5 ∧ -8388608 ≤ c.zero ∧ c.zero ≤ 8388607 ∧ 1 ≤ c.span ∧ c.span ≤ 16777215 ∧
    8192 ≤ c.corner ∧ c.corner ≤ 24576 ∧ c.breaks.length ≤ 4 ∧ (c.breaks.map (·.1)).Pairwise (· < ·) ∧
    ∀ b ∈ c.breaks, 1 ≤ b.1 ∧ b.1 ≤ 100000000 ∧ -50000 ≤ b.2 ∧ b.2 ≤ 50000

/-- A cell entry of a node address other than 0 whose every value its field of a METRO write can spell (R199). -/
def CellSpelled (c : CellConst) : Prop :=
  1 ≤ c.node ∧ c.node ≤ 255 ∧ c.deck ≤ 255 ∧ -2147483648 ≤ c.zero ∧ c.zero ≤ 2147483647 ∧ c.span < 4294967296 ∧
    c.corner < 4294967296 ∧ c.breaks.length ≤ 255 ∧
    ∀ b ∈ c.breaks, b.1 < 4294967296 ∧ -2147483648 ≤ b.2 ∧ b.2 ≤ 2147483647

/-- The set holds parameter `p` at value `x`: R153's parameters, the fields of a cell numbered by R204. -/
def SetHas (m : MetroSet) : Param → Int → Prop
  | .bridge f, x => f = 0 ∧ x = m.n ∨ f = 1 ∧ x = m.e ∨ f = 2 ∧ x = m.interval
  | .max d, x => ∃ v, m.maxes[d]? = some v ∧ x = v
  | .cell node f, x => ∃ c ∈ m.cellList, c.node = node ∧
      (f = 1 ∧ x = c.deck ∨ f = 2 ∧ x = c.zero ∨ f = 3 ∧ x = c.span ∨ f = 4 ∧ x = c.corner ∨
        f = 5 ∧ x = c.breaks.length ∨
        ∃ (j : Nat) (b : Nat × Int), c.breaks[j]? = some b ∧ (f = 6 + 2 * j ∧ x = b.1 ∨ f = 7 + 2 * j ∧ x = b.2))

/-- METRO entry `i` holds parameter `p`: the bridge's, a deck's Max, or those of the node that stands at the entry's cell
position, in the working set where it holds that node, else in the active set (R149, R204, notes/assumptions/25, 57). -/
def EntryHolds (m : MetroSet) (act : Option MetroSet) (i : Nat) : Param → Prop
  | .bridge _ => i = 0
  | .max d => i = 1 + d
  | .cell node _ =>
    (∃ (j : Nat) (c : CellConst), m.cells[j]? = some (some c) ∧ c.node = node ∧ i = 7 + j) ∨
    (∀ c ∈ m.cellList, c.node ≠ node) ∧ ∃ a, act = some a ∧
      ∃ (j : Nat) (c : CellConst), a.cells[j]? = some (some c) ∧ c.node = node ∧ i = 7 + j

/-- The rows of the table of R189, with the thresholds of R20: first and last index, range and default. -/
def settingRows : List (Nat × Nat × Int × Int × Int) :=
  [(0, 0, 10, 100, 20), (1, 1, 2, 10, 3), (3, 3, 4, 32, 8), (4, 4, 1, 6, 2), (5, 5, 1, 10, 2), (6, 6, 10, 120, 30),
   (7, 7, 1, 10, 3), (8, 8, 1000, 3000, 2000), (9, 15, 300, 1000, 500), (16, 16, 100, 1000, 250), (17, 17, 1, 10, 2),
   (18, 18, 10, 120, 60), (19, 19, 1, 168, 72), (20, 20, 1, 90, 30), (21, 21, 0, 32, 8), (22, 22, 30, 600, 120),
   (23, 23, -400, 850, 700), (24, 24, -400, 850, 600), (25, 25, -400, 850, -250), (26, 26, -400, 850, -350),
   (27, 27, 0, 12000, 10600), (28, 28, 0, 12000, 10300), (29, 29, 0, 12000, 9700), (30, 30, 0, 12000, 9400),
   (31, 31, -1000000, 1000000, 50000), (32, 32, -1000000, 1000000, 20000), (33, 33, -1000000, 1000000, -20000),
   (34, 34, -1000000, 1000000, -50000)]

/-- Parameter order (R153). -/
def Param.before : Param → Param → Prop
  | .bridge f, .bridge g => f < g
  | .bridge _, _ => True
  | .max d, .max e => d < e
  | .max _, .cell _ _ => True
  | .cell v f, .cell w g => v < w ∨ v = w ∧ f < g
  | _, _ => False

/-- The writes that reconcile the pending records `own` leaves out, lowest number first, against the serials `beyond`
(R135, R166). -/
structure Reconciles (s : State) (beyond : Nat → Prop) (own : List Nat) (ws : List Write) : Prop where
  those : ∀ w, w ∈ ws ↔ ∃ (n : Nat) (r : Rec PendingRec), s.mst.store.pending[n]? = some r ∧ n ∉ own ∧
    recPasses pendingBytes r = true ∧
    ((∃ i, r.contents = .entry i ∧ beyond i.serial ∧ w = .pending n .empty) ∨
      ∃ i m, r.contents = .removed i m ∧ beyond m ∧ w = .pending n (.entry i))
  rising : ws.Pairwise fun v w => ∀ m n p q, v = .pending m p → w = .pending n q → m < n

/-- A pending record is free for a GROSS-IN while `issued` is the last issued serial (R134). -/
def FreeRecord (issued : Nat) (r : Rec PendingRec) : Prop :=
  recPasses pendingBytes r = false ∨ r.contents = .empty ∨ (∃ i, r.contents = .entry i ∧ issued < i.serial) ∨
    ∃ i m, r.contents = .removed i m ∧ m ≤ issued

/-- The change item of parameter `p` (R163, R204). -/
def ItemOf (m : MetroSet) (act : Option MetroSet) (p : Param) (x : ChangeItem) : Prop :=
  EntryHolds m act x.index p ∧ (∀ v, x.new = some v ↔ SetHas m p v) ∧
    (∀ v, x.old = some v ↔ ∃ a, act = some a ∧ SetHas a p v) ∧
    x.field = match p with
      | .bridge f => f
      | .max _ => 0
      | .cell _ f => f

/-- The log entry `e` a CAL job begun in `s` writes (R163, R164, R166). -/
def EntryFor (s : State) (e : LogEntry) (kind : LogKind) : Prop :=
  e.counter = s.cal.counter + 1 ∧ e.kind = kind ∧ e.time = s.gpt.time

/-- `r` is job `j` as begun in `s`, with the values of R134 and, in R135's order, its writes: those of each kind after the
reconciling writes of R135 and R166. The present check code of LOG-ERASE and SERIAL-RESTORE as that of the counter record,
and the serial after 4,294,967,295, are the model's choices (notes/assumptions/12, 52). -/
def BegunAs (s : State) (j : Job) (r : Running) : Prop :=
  let beyond := fun n => ∃ q, s.tku.serials = some q ∧ q.issued < n
  let activeCode := ∀ a, s.cal.active = some a → r.code = checkWord (setBytes a)
  let presentCode := recPasses counterBytes s.mst.store.counter = true → r.code = s.mst.store.counter.contents.code
  let counted : Write := .counter { counter := s.cal.counter + 1, code := r.code }
  r.written = 0 ∧ r.again = false ∧ r.time = s.gpt.time ∧ r.counter = s.cal.counter ∧
  (∀ q, s.tku.serials = some q → r.serial = q.issued + 1) ∧
  (∀ k, s.mst.newestSlot = some k → r.logSlot = (k + 1) % 32) ∧ (s.mst.newestSlot = none → r.logSlot = 0) ∧
  match j with
  | .ticket c =>
    let entry : Inbound := { identity := c.identity.getD 0, serial := r.serial, gross := c.gross,
                             time := r.time.getD 0, classCode := c.check.classCode }
    activeCode ∧
    (c.kind ≠ .grossIn → r.recNo = none) ∧
    (c.kind = .grossIn → ∀ q, s.tku.serials = some q →
      (∀ n, r.recNo = some n → (∃ x, s.mst.store.pending[n]? = some x ∧ FreeRecord q.issued x) ∧
        ∀ (m : Nat) x, m < n → s.mst.store.pending[m]? = some x → ¬FreeRecord q.issued x) ∧
      (r.recNo = none → ∀ (m : Nat) x, s.mst.store.pending[m]? = some x → ¬FreeRecord q.issued x)) ∧
    ∃ rec own nums, Reconciles s beyond nums rec ∧ r.writes = rec ++ own ++ [.serial r.serial] ∧
      (c.kind = .grossIn → nums = r.recNo.toList ∧ own = nums.map fun n => .pending n (.entry entry)) ∧
      (c.kind = .tareOut → let out := s.tku.pending.filter fun p => decide (c.pendingRec = some p.recNo)
        nums = out.map (·.recNo) ∧ own = out.map fun p => .pending p.recNo (.removed p.inbound r.serial)) ∧
      (c.kind ≠ .grossIn → c.kind ≠ .tareOut → nums = [] ∧ own = [])
  | .close c =>
    activeCode ∧
    (∀ a v, s.cal.active = some a → s.gpt.time = some v → r.expiry = min (v + a.interval * 86400) 4294967295) ∧
    ∃ rec, Reconciles s beyond [] rec ∧ r.writes = rec
      ++ (c.decks.filter fun x => decide (x.verdict ≠ .none)).map (fun x =>
          .verif x.deck (if x.verdict = .pass then .verified r.expiry else .failed))
      ++ [.serial r.serial]
  | .commit =>
    let parameters := differences s.cal.working s.cal.active
    r.code = checkWord (setBytes s.cal.working) ∧
    ∃ e, r.entry = some e ∧ EntryFor s e .commit ∧ e.total = parameters.length ∧
      e.items.length = min 8 parameters.length ∧
      (SetSound s.cal.working → (∀ a, s.cal.active = some a → SetSound a) → ∀ (i : Nat) x p, e.items[i]? = some x →
        parameters[i]? = some p → ItemOf s.cal.working s.cal.active p x) ∧
      r.writes = .log r.logSlot e :: .set s.cal.working ::
        ((changedDecks s.cal.working s.cal.active).map fun d => .verif d .unverified) ++ [counted]
  | .logErase =>
    presentCode ∧ ∃ e, r.entry = some e ∧ EntryFor s e .erase ∧ e.items = [] ∧ e.total = s.cal.log.length ∧
      r.writes = [.log r.logSlot e, counted]
  | .restore v =>
    presentCode ∧ ∃ e rec, r.entry = some e ∧ EntryFor s e .restore ∧ e.total = 2 ∧
      e.items = [{ index := 255, field := 0, old := s.tku.serials.map fun q => (q.issued : Int), new := some (v : Int) },
                 { index := 255, field := 1, old := s.tku.serials.map fun q => (q.acked : Int), new := some (v : Int) }] ∧
      Reconciles s (fun n => v < n ∨ beyond n) [] rec ∧
      r.writes = .log r.logSlot e :: rec ++ [.serial v, .ack v, counted]
  | .ack v => r.writes = [.ack v]
  | .housekeeping ns => r.writes = ns.map fun n => .pending n .empty

/-- The fields of a computed check as a SLOTS answer gives them, in the order of R90, and of its group list in that of R91
(R199): a position is four bytes, a deck number one, and a pair stands behind one presence byte. -/
def checkBody (c : Check) : List Byte :=
  bytesOf 1 c.classCode ++ [sourceCode c.source] ++ listBytes (fun x => [groupTypeCode x]) c.pattern
    ++ listBytes (fun g =>
        [groupTypeCode g.type] ++ optField 8 (g.axles.map fun p => bytesOf 4 p.1 ++ bytesOf 4 p.2)
          ++ optField 2 (g.decks.map fun p => bytesOf 1 p.1 ++ bytesOf 1 p.2) ++ optMass g.load ++ sbytesOf 4 g.limit
          ++ sbytesOf 4 g.ceiling ++ [verdictCode g.verdict, match g.reason with
            | some .overflow => 0#8
            | some .pattern => 1#8
            | some .unclaimed => 2#8
            | some .sharedDeck => 3#8
            | some .noGross => 4#8
            | some .moving => 5#8
            | some .noClass => 0xFF#8
            | none => 0xFF#8]) c.groups
    ++ optMass c.gross ++ optMass c.grossLimit ++ optMass c.grossCeiling
    ++ [optCode verdictCode c.grossVerdict, verdictCode c.overall] ++ nameSet (c.reasons.map CheckReason.name)
    ++ [marksByte [c.hold]]

/-- The code of a named value: its place in the list of values given for the field (R199). -/
def placeIn {α : Type} [DecidableEq α] (values : List α) (v : α) : Byte := BitVec.ofNat 8 (values.idxOf v)

/-- The code of a named value that may be absent (R199). -/
def placeOrAbsent {α : Type} [DecidableEq α] (values : List α) : Option α → Byte
  | some v => placeIn values v
  | none => 0xFF#8

/-- The fields of an IDENTITY answer before its check word, in the order of R191; the six untracked-crossing counts as six
fields (notes/assumptions/58). -/
def identityEntry (s : State) : List Byte :=
  bytesOf 4 Config.vendorCode.toNat ++ bytesOf 4 Config.partCode.toNat ++ bytesOf 4 Config.revision.toNat
    ++ bytesOf 4 Config.partSerial.toNat ++ [placeIn [.normal, .cal] s.cal.mode]
    ++ (match s.activeCode with
        | some w => 1#8 :: wordBytes w
        | none => [0#8, 0#8, 0#8])
    ++ bytesOf 4 s.cal.counter
    ++ bytesOf 4 s.fpt.inward.badLength ++ bytesOf 4 s.fpt.inward.badCheck ++ bytesOf 4 s.fpt.inward.unknownKind
    ++ bytesOf 4 s.scn.unknownCell ++ bytesOf 4 s.scn.stale ++ bytesOf 4 s.scn.repeated
    ++ bytesOf 4 s.axt.unknownBoundary ++ bytesOf 4 s.axt.repeated ++ bytesOf 4 s.axt.suspect
    ++ bytesOf 4 s.axt.untracked[0] ++ bytesOf 4 s.axt.untracked[1] ++ bytesOf 4 s.axt.untracked[2]
    ++ bytesOf 4 s.axt.untracked[3] ++ bytesOf 4 s.axt.untracked[4] ++ bytesOf 4 s.axt.untracked[5]
    ++ bytesOf 4 s.gpt.inward.badLength ++ bytesOf 4 s.gpt.inward.badCheck ++ bytesOf 4 s.gpt.inward.unknownKind
    ++ bytesOf 4 s.gpt.unanswered ++ bytesOf 4 s.gpt.dropped

/-- The condition of deck `d`, whose record is `k`, by its code: the first line of R34's table that applies (R201). -/
def conditionByte (s : State) (d : Nat) (k : Deck) : Byte :=
  if k.fault ≠ none then 1#8
  else if k.zero = none then 0#8
  else match k.gross with
    | some g => if s.deckMax d + 9 * s.division < g then 2#8 else if g < -20 * s.division then 3#8 else 4#8
    | none => 4#8

/-- The gross a report of deck `d` carries: rounded to the division, or in CAL mode and for a deck the audit run claims to
a tenth of it (R43, R46). -/
def shownGross (s : State) (d : Nat) (k : Deck) : Option Int :=
  let unit := if s.cal.mode = .cal ∨ s.claimOf d = .audit then s.division / 10 else s.division
  k.gross.map fun g => roundDiv g unit * unit

/-- What R43 watches of deck `d` differs between `s` and `t`. -/
def ReportDue (s t : State) (d : Nat) : Prop :=
  let suspect := fun (x : State) => ∃ c ∈ x.cells, c.const.deck = d ∧ c.suspect = true
  ∃ k', t.decks[d]? = some k' ∧ ∀ k, s.decks[d]? = some k →
    conditionByte s d k ≠ conditionByte t d k' ∨ k.fault ≠ k'.fault ∨ k.motion ≠ k'.motion ∨
      k.zeroStatus ≠ k'.zeroStatus ∨ ¬(suspect s ↔ suspect t) ∨ k.untracked ≠ k'.untracked ∨
      s.claimOf d ≠ t.claimOf d ∨ s.standingOf d ≠ t.standingOf d

/-- The 18 bytes of the WEIGHT body of deck `d`, whose record is `k` (R201, R46). -/
def weightFields (s : State) (d : Nat) (k : Deck) : List Byte :=
  let extended := decide (s.cal.mode = .cal ∨ s.claimOf d = .audit)
  [BitVec.ofNat 8 d, conditionByte s d k, placeOrAbsent [.cell, .uncalibrated] k.fault, placeIn [.moving, .stable] k.motion,
   placeIn [.fresh, .stale] k.zeroStatus, marksByte [s.deckSuspect d, s.deckWarn d, k.untracked, extended],
   placeIn [.none, .slot .slot0, .slot .slot1, .audit] (s.claimOf d)]
    ++ (match s.standingOf d with
        | .verified expiry => 0#8 :: bytesOf 4 expiry
        | .unverified => 1#8 :: bytesOf 4 0
        | .failed => 2#8 :: bytesOf 4 0)
    ++ [BitVec.ofNat 8 (s.axleCount d), BitVec.ofNat 8 (s.strayCount d)]
    ++ optMass (shownGross s d k)

/-- The body of a TICKET frame: one ring record, field by field (R202). -/
def ticketFields : RingRec → List Byte
  | .weigh r =>
    let c := r.capture
    let verdicts : List Verdict := [.pass, .tolerated, .over, .indeterminate]
    0#8 :: bytesOf 4 r.serial ++ [placeIn [.grossIn, .tareOut, .storedNet, .tareRefresh, .spot] c.kind]
      ++ bytesOf 4 r.time
      ++ bytesOf 8 (match c.identity with
          | some i => i.toNat
          | none => 0)
      ++ [BitVec.ofNat 8 c.check.classCode, placeIn verdicts c.check.overall, placeOrAbsent verdicts c.check.grossVerdict,
          marksByte [c.check.reasons.contains .noClass, c.check.reasons.contains .pattern,
            c.check.reasons.contains .overflow, c.check.reasons.contains .unclaimed,
            c.check.reasons.contains .sharedDeck, c.check.reasons.contains .noGross, c.check.reasons.contains .moving],
          marksByte [c.warn, c.tolerated]]
      ++ sbytesOf 4 c.gross ++ optMass c.tare ++ optMass c.net
      ++ (match c.source with
          | .pass serial => 0#8 :: bytesOf 4 serial
          | .stored time => 1#8 :: bytesOf 4 time
          | .none => 2#8 :: bytesOf 4 0)
      ++ bytesOf 4 r.counter ++ wordBytes r.code
      ++ (BitVec.ofNat 8 c.decks.length :: c.decks.flatMap fun p => BitVec.ofNat 8 p.1 :: sbytesOf 4 p.2)
      ++ (BitVec.ofNat 8 c.check.groups.length :: c.check.groups.flatMap fun g =>
          placeIn [.single, .tandem, .tri, .quad, .invalid] g.type :: optMass g.load ++ sbytesOf 4 g.limit
            ++ [placeIn verdicts g.verdict])
  | .audit r =>
    let c := r.capture
    1#8 :: bytesOf 4 r.serial ++ bytesOf 4 r.time ++ [placeIn [.normal, .cal] c.mode] ++ bytesOf 4 r.counter
      ++ wordBytes r.code
      ++ (BitVec.ofNat 8 c.decks.length :: c.decks.flatMap fun x =>
          [BitVec.ofNat 8 x.deck, placeIn [.pass, .fail, .none] x.verdict,
           marksByte [x.reasons.contains .point, x.reasons.contains .noZeroPoint, x.reasons.contains .tooFew,
             x.reasons.contains .eccentricity],
           placeIn [.pass, .fail, .none] x.ecc]
            ++ bytesOf 4 (if x.verdict = .pass then r.expiry else 0) ++ bytesOf 2 x.traffic)
      ++ (BitVec.ofNat 8 c.points.length :: c.points.flatMap fun p =>
          BitVec.ofNat 8 p.deck :: sbytesOf 4 p.nominal ++ [BitVec.ofNat 8 p.position] ++ optMass p.indication
            ++ optMass p.error ++ optMass p.mpe ++ [placeOrAbsent [.pass, .fail, .unstable] p.verdict])
  | .void a b => 2#8 :: bytesOf 4 a ++ bytesOf 4 b

/-- The number of bytes of a TICKET body, by record kind (R202). -/
def ticketLength : RingRec → Nat
  | .weigh r => 48 + 5 * r.capture.decks.length + 10 * r.capture.check.groups.length
  | .audit r => 18 + 10 * r.capture.decks.length + 19 * r.capture.points.length
  | .void _ _ => 9

/-- The code of a notice's kind (R192, R201) and its contents in the order its rule names them. The sizes that no layout
gives, the claimant as the cause of a stray's move, and the code of CLEARED after the reasons, are the model's (notes/assumptions/18, 19, 64). -/
def noticeFields : Notice → Byte × List Byte
  | .powerUp mode switch counter code lost => (0#8, [placeIn [.normal, .cal] mode, placeIn [.normal, .cal] switch]
      ++ bytesOf 4 counter ++ (match code with
        | some w => 1#8 :: wordBytes w
        | none => [0#8, 0#8, 0#8])
      ++ [marksByte [lost]])
  | .cellFlag i node k h v => (1#8, [BitVec.ofNat 8 i, BitVec.ofNat 8 node, placeIn [.temperature, .excitation, .drift] k,
      placeIn [.highAlarm, .highWarning, .lowWarning, .lowAlarm] h] ++ sbytesOf 4 v)
  | .cellFault i node st => (2#8, [BitVec.ofNat 8 i, BitVec.ofNat 8 node,
      placeIn [some .overrange, some .node, some .timeout, none] st])
  | .zeroStale d => (3#8, [BitVec.ofNat 8 d])
  | .zeroRange d w z => (4#8, BitVec.ofNat 8 d :: sbytesOf 4 w ++ sbytesOf 4 z)
  | .residue d g => (5#8, BitVec.ofNat 8 d :: sbytesOf 4 g)
  | .spanBreach u d c => (6#8, [placeIn [.slot0, .slot1] u, BitVec.ofNat 8 d,
      placeIn [.slot0, .slot1, .audit, .untracked, .strays, .notAdjacent] c])
  | .intrusion d c => (7#8, [BitVec.ofNat 8 d, placeIn [.claimed, .noSlot, .refused] c])
  | .intrusionMove d c => (7#8, [BitVec.ofNat 8 d, placeIn [.none, .slot .slot0, .slot .slot1, .audit] c])
  | .duplicateId u i => (8#8, placeIn [.slot0, .slot1] u :: bytesOf 8 i.toNat)
  | .barred u i h => (9#8, placeIn [.slot0, .slot1] u :: bytesOf 8 i.toNat ++ bytesOf 4 h)
  | .ringLow n => (10#8, bytesOf 4 n)
  | .storeFault o k n w => (11#8, [placeIn [.slot .slot0, .slot .slot1, .aud, .cal, .ack, .housekeeping] o,
      placeIn [.set, .counter, .log, .verification, .serial, .acknowledged, .pending] k]
      ++ (match n with
          | some v => 1#8 :: bytesOf 4 v
          | none => [0#8, 0#8, 0#8, 0#8, 0#8]) ++ bytesOf 4 w)
  | .commitDone counter code ds =>
    (12#8, 0#8 :: bytesOf 4 counter ++ wordBytes code ++ (BitVec.ofNat 8 ds.length :: ds.map (BitVec.ofNat 8)))
  | .eraseDone counter => (12#8, 1#8 :: bytesOf 4 counter)
  | .restoreDone counter v => (12#8, 2#8 :: bytesOf 4 counter ++ bytesOf 4 v)
  | .switchMoved p m => (13#8, [placeIn [.normal, .cal] p, placeIn [.normal, .cal] m])
  | .pendingExpired x => (14#8, bytesOf 8 x.identity.toNat ++ bytesOf 4 x.serial ++ sbytesOf 4 x.gross ++ bytesOf 4 x.time)
  | .pendingDropped n i serial => (15#8, bytesOf 4 n
      ++ bytesOf 8 (match i with
          | some v => v.toNat
          | none => 0)
      ++ (match serial with
          | some v => 1#8 :: bytesOf 4 v
          | none => [0#8, 0#8, 0#8, 0#8, 0#8]))
  | .verificationLapsed d t => (16#8, BitVec.ofNat 8 d :: bytesOf 4 t)
  | .ackRecordLost n => (17#8, bytesOf 4 n)

/-- The end of the serials a ring record stands for: its own, or the end of a VOID record's range (R122). -/
def lastSerial : RingRec → Nat
  | .weigh r => r.serial
  | .audit r => r.serial
  | .void _ b => b

/-! ### What a command may touch -/

/-- The blocks of the state. -/
inductive Block where
  | fpt | scn | cells | decks | axt | slc | classes | tku | aud | cal | mst | gpt | settings
  deriving DecidableEq, Repr

/-- `t` is `s` but for the blocks listed. -/
structure SameBut (bs : List Block) (s t : State) : Prop where
  pending : t.pending = s.pending
  powered : t.powered = s.powered
  fpt : Block.fpt ∉ bs → t.fpt = s.fpt
  scn : Block.scn ∉ bs → t.scn = s.scn
  cells : Block.cells ∉ bs → t.cells = s.cells
  decks : Block.decks ∉ bs → t.decks = s.decks
  axt : Block.axt ∉ bs → t.axt = s.axt
  slc : Block.slc ∉ bs → t.slc = s.slc
  classes : Block.classes ∉ bs → t.classes = s.classes
  tku : Block.tku ∉ bs → t.tku = s.tku
  aud : Block.aud ∉ bs → t.aud = s.aud
  cal : Block.cal ∉ bs → t.cal = s.cal
  mst : Block.mst ∉ bs → t.mst = s.mst
  gpt : Block.gpt ∉ bs → t.gpt = s.gpt
  settings : Block.settings ∉ bs → t.settings = s.settings

/-- The blocks that ending an operation may touch: lane marks, report and settle timers, slot marks and checks, and
notices (R35, R43, R72, R87, R92). -/
def endBlocks : List Block := [.fpt, .decks, .slc, .gpt]

/-- The blocks a port's characters may touch: those of the frames it takes inward (R184, R185, R186). -/
def portBlocks : Port → List Block
  | .field => [.fpt, .scn, .cells, .decks, .axt, .slc, .aud, .mst, .gpt]
  | .gatehouse => [.gpt]

end Sys2Proof.Machine

namespace Sys2Proof

open Sys2Proof.Machine

/-- The blocks a command may touch; for a row that spells a whole frame, where its port holds no part-assembled one. -/
def Instr.touches : Instr → List Block
  | .powerUp _ => []
  | .powerLoss _ => []
  | .framePause p _ => portBlocks p
  | .badFrame p _ => portBlocks p
  | .cellFrame .. => [.scn, .cells, .aud] ++ endBlocks
  | .scanTimerExpiry => [.scn, .cells] ++ endBlocks
  | .sendScan => [.fpt]
  | .sendSignal => [.fpt]
  | .zeroSettleExpiry _ => .cells :: endBlocks
  | .zeroIntervalExpiry _ => endBlocks
  | .reportDelayExpiry _ => [.decks]
  | .maximumIntervalExpiry _ => [.decks]
  | .axleFrame .. => [.axt, .aud] ++ endBlocks
  | .quietTimerExpiry _ => endBlocks
  | .identFrame .. => endBlocks
  | .waitingIdentityExpiry => [.slc]
  | .laneKeyCancel _ => endBlocks
  | .laneKeyPrint _ => .mst :: endBlocks
  | .requestFrame .. => [.gpt]
  | .unknownRequest .. => [.gpt]
  | .readEntrySettings .. => [.gpt]
  | .writeEntrySettings .. => [.cells, .decks, .gpt, .settings]
  | .readEntryCells .. => [.gpt]
  | .readEntryDecks .. => [.gpt]
  | .readEntryMetro .. => [.gpt]
  | .writeEntryMetro .. => [.cal, .gpt]
  | .readEntryClasses .. => [.gpt]
  | .writeEntryClasses .. => [.classes, .gpt]
  | .readEntryPermits .. => [.gpt]
  | .writeEntryPermits .. => endBlocks
  | .readEntryBarred .. => [.gpt]
  | .writeEntryBarred .. => [.slc, .gpt]
  | .readEntrySlots .. => [.gpt]
  | .readEntryPending .. => [.gpt]
  | .readEntryAuditlog .. => [.cal, .gpt]
  | .readEntryAuditrun .. => [.gpt]
  | .readEntryIdentity .. => [.gpt]
  | .setTime .. => [.tku, .aud, .gpt]
  | .timeTick => [.gpt]
  | .zero .. => endBlocks
  | .reIdent .. => endBlocks
  | .abortSlot .. => endBlocks
  | .clearStrays _ => .axt :: endBlocks
  | .finalize .. => .mst :: endBlocks
  | .ackTickets .. => [.tku, .mst, .gpt]
  | .resendTickets .. => [.tku, .gpt]
  | .ackFlags .. => .cells :: endBlocks
  | .auditOpen .. => .aud :: endBlocks
  | .auditPoint .. => [.aud, .gpt]
  | .pointTimerExpiry => [.aud]
  | .auditClose _ => [.aud, .mst, .gpt]
  | .auditCancel _ => .aud :: endBlocks
  | .zeroCells .. => [.cal, .gpt]
  | .spanFromPoint .. => [.cal, .gpt]
  | .commit _ => .mst :: endBlocks
  | .logErase _ => [.mst, .gpt]
  | .serialRestore .. => [.mst, .gpt]
  | .reset .. => [.cells, .axt, .tku, .aud, .cal] ++ endBlocks
  | .sendResponse => [.gpt]
  | .sendTicket => [.tku, .gpt]
  | .sendNotice => [.gpt]
  | .sendWeight => [.decks, .gpt]
  | .recordWriteDone _ => [.cells, .axt, .tku, .aud, .cal, .mst] ++ endBlocks
  | .pendingSweep => [.tku, .mst]
  | .verificationLapsed => [.aud, .gpt]
  | .switchMoved _ => [.cal, .gpt]
  | .writeEntryReadOnlyTable .. => [.gpt]
  | .unknownTableName .. => [.gpt]

/-- The port whose inward line a row's one frame arrives on, for the rows that spell a whole frame. -/
def Instr.port : Instr → Option Port
  | .cellFrame .. => some .field
  | .axleFrame .. => some .field
  | .identFrame .. => some .field
  | .laneKeyCancel _ => some .field
  | .laneKeyPrint _ => some .field
  | .requestFrame .. => some .gatehouse
  | _ => none

/-- The command is one operation of the part: no row of the characters of several frames, and a row that spells a frame
finds no frame part-assembled at its port. -/
def Machine.OneOperation (c : Instr) (s : State) : Prop :=
  (∀ p chars, c ≠ .framePause p chars ∧ c ≠ .badFrame p chars) ∧ ∀ p, c.port = some p → (s.receiver p).rx = []

/-- The command changes the supply: POWER_UP or POWER_LOSS. -/
def Instr.isSupply : Instr → Bool
  | .powerUp _ => true
  | .powerLoss _ => true
  | _ => false

end Sys2Proof
end

