-- ==== Sys2Proof/Certificates/Slice0/Obligations.lean ====
section
/-! DEFINITION. The statements for the provers, each a proposition; OBLIGATIONS.json lists them. A statement marked "the
model's choice" in its docstring rests on the log entry it names. -/

open Sys2Proof Sys2Proof.Machine

/-! ### The whole machine -/

/-- A step runs the command at the front of the queue on the state with the queue's rest. -/
def Obligations.StepRunsCommand : Prop :=
  ∀ c rest s, s.pending = c :: rest → step s = exec c { s with pending := rest }

/-- With no command waiting, a step takes one millisecond off every running timer; while the supply is off it changes
nothing (the model's choice, notes/assumptions 2 and 9). -/
def Obligations.StepPassesTime : Prop :=
  ∀ s, s.pending = [] → Ends (step s) fun t =>
    (s.powered = false → t = s) ∧
    (s.powered = true →
      SameBut [.scn, .decks, .slc, .tku, .aud, .gpt] s t ∧
      t.scn = { s.scn with timer := s.scn.timer.map (· - 1) } ∧
      t.decks = s.decks.map (fun k => { k with
        settle := k.settle.map (· - 1), interval := k.interval.map (· - 1), delay := k.delay.map (· - 1),
        maxInterval := k.maxInterval.map (· - 1) }) ∧
      (∀ u, t.slot u = { s.slot u with quietTimer := (s.slot u).quietTimer.map (· - 1) }) ∧
      t.slc.waiting = s.slc.waiting ∧ t.slc.waitingTimer = s.slc.waitingTimer.map (· - 1) ∧
      t.slc.claims = s.slc.claims ∧ t.tku = { s.tku with sweep := s.tku.sweep.map (· - 1) } ∧
      t.aud = { s.aud with timer := s.aud.timer.map (· - 1), sweep := s.aud.sweep.map (· - 1) } ∧
      t.gpt.time = s.gpt.time ∧ t.gpt.requests = s.gpt.requests ∧ t.gpt.responses = s.gpt.responses ∧
      t.gpt.notices = s.gpt.notices)

/-- The state after reset meets every invariant stated of steps below. -/
def Obligations.ResetMeetsInvariants : Prop :=
  State.reset.QueuesBounded ∧ State.reset.RingBounded ∧ State.reset.OneJobEach ∧ State.reset.IdentitiesApart ∧
  State.reset.LineOrdered ∧ State.reset.EntryNext ∧ State.reset.MarksTrue ∧ State.reset.LanesTold ∧
  State.reset.ChecksStand ∧ State.reset.NamesFresh ∧ State.reset.SlotsGrounded ∧ State.reset.DecksThere ∧
  State.reset.SettleHeld ∧ State.reset.SetsSound ∧ State.reset.FrontWritten

/-- No command stops the part: a run of any number of steps, from any state, goes on. -/
def Obligations.RunsNeverStop : Prop := ∀ s : State, s.RunsOn

/-- The frame of every command but the two of the supply: it changes no block of the state other than those its rules
name (`Instr.touches`), and neither the queue of commands nor the supply; a row that spells a whole frame, where its port
holds a part-assembled one, changes no block but those the port's frames may. While the supply is off, every command but
POWER_UP leaves the whole state as it is (this last is the model's choice, notes/assumptions/9). -/
def Obligations.CommandsKeepOtherBlocks : Prop :=
  (∀ c s t, c.isSupply = false → (∀ p, c.port = some p → (s.receiver p).rx = []) → exec c s = .next t →
    SameBut c.touches s t) ∧
  (∀ c p s t, c.port = some p → exec c s = .next t → SameBut (portBlocks p) s t) ∧
  (∀ c s, s.powered = false → (∀ m, c ≠ .powerUp m) → exec c s = .next s)

/-! ### The supply and the store's load -/

/-- POWER_UP: the part starts from its store, in the mode the switch reads, with a POWER_UP notice first in the queue
(R140, R147, R192, R196). All that the store does not hold is as after power-up: both ports with their receivers, marks,
queues and counts (R184 to R186, R192, R193); the scan controller, the cells and every deck with its windows, timers and
marks, in FAULT only where R25 has it so (R1, R8, R40, R41); the axle tracker (R50, R59); slots, claims, commit mark,
permits and bars (R65, R67, R77, R78, R81); the classes (R88); the acknowledgement held, both sweeps and the audit run
(R120, R125, R168, R183); and the settings (R189). That it does nothing while the supply is good, and the permit's fields
not named, are the model's choices (notes/assumptions/9, 32). -/
def Obligations.PowerUpStarts : Prop :=
  ∀ m s,
    (s.powered = false → Ends (exec (.powerUp m) s) fun t =>
      t.powered = true ∧ t.pending = s.pending ∧ t.mst.store = s.mst.store ∧ t.mst.jobs = [] ∧
      t.mst.running = none ∧ t.mst.storeFault = false ∧ t.cal.mode = m ∧ t.cal.switch = m ∧
      t.settings = defaultSettings ∧ (∀ (i : Nat) c, t.classes[i]? = some c → c = none) ∧
      (t.gpt.inward = { rx := [], badLength := 0, badCheck := 0, unknownKind := 0 } ∧ t.gpt.time = none ∧
        t.gpt.requests = [] ∧ t.gpt.responses = [] ∧ t.gpt.unanswered = 0 ∧ t.gpt.fairness = 0 ∧
        t.gpt.lastReported = t.decks.length - 1 ∧ (t.gpt.overflow = false → t.gpt.dropped = 0)) ∧
      (t.fpt.inward = { rx := [], badLength := 0, badCheck := 0, unknownKind := 0 } ∧ t.fpt.scanWaiting = none ∧
        t.fpt.entryMark = true ∧ t.fpt.exitMark = true ∧ t.fpt.entrySent = none ∧ t.fpt.exitSent = none) ∧
      t.scn = { number := 0, isOpen := false, timer := some 20, unknownCell := 0, stale := 0, repeated := 0 } ∧
      (t.axt.line = [] ∧ (∀ (b : Nat) q, t.axt.last[b]? = some q → q = none) ∧ t.axt.unknownBoundary = 0 ∧
        t.axt.repeated = 0 ∧ t.axt.suspect = 0 ∧ ∀ (d : Nat) n, t.axt.untracked[d]? = some n → n = 0) ∧
      (t.slc.slot0 = freeSlot ∧ t.slc.slot1 = freeSlot ∧ t.slc.claims = List.replicate t.decks.length .none ∧
        t.slc.commitMark = false ∧ t.slc.waiting = none ∧ t.slc.waitingTimer = none ∧ (∀ h, t.barFlag h = false) ∧
        ∀ (i : Nat) p, t.slc.permits[i]? = some p → p.valid = false ∧ p.identity = 0 ∧ p.tare = none) ∧
      (∀ (d : Nat) (k : Deck), t.decks[d]? = some k →
        k = { fault := k.fault, motion := .moving, zeroStatus := .stale, zero := none, untracked := false, w := none,
              filter := [], motionWin := [], settle := none, checked := false, interval := none, delay := none,
              maxInterval := none, reportMark := true, scanLost := false } ∧
        (k.fault = none ↔ ∃ c ∈ t.cells, c.const.deck = d) ∧ (k.fault ≠ none → k.fault = some .uncalibrated)) ∧
      (∀ c ∈ t.cells, c = freshCell c.const) ∧
      (t.aud.run = .closed ∧ t.aud.decks = [] ∧ t.aud.traffic = [] ∧ t.aud.points = [] ∧ t.aud.timer = none ∧
        t.aud.sweep = none ∧ t.aud.lapsed = List.replicate t.decks.length false) ∧
      t.tku.heldAck = none ∧ t.tku.sweep = none ∧
      t.gpt.notices.head? = some (Stamped.mk none
        (.powerUp m m t.cal.counter t.activeCode t.serialLost))) ∧
    (s.powered = true → exec (.powerUp m) s = .next s)

/-- The load judges the counter record and the set record together (R141). -/
def Obligations.LoadJudgesSetAndCounter : Prop :=
  ∀ m s, s.powered = false → Ends (exec (.powerUp m) s) fun t =>
    let st := s.mst.store
    (recPasses counterBytes st.counter = true → t.cal.counter = st.counter.contents.counter) ∧
    (recPasses counterBytes st.counter = false →
      (∀ x ∈ t.cal.log, x.entry.counter ≤ t.cal.counter) ∧
      (∀ x, t.cal.log.getLast? = some x → t.cal.counter = x.entry.counter) ∧
      (t.cal.log = [] → t.cal.counter = 0)) ∧
    t.cal.active =
      (if recPasses counterBytes st.counter = true ∧ recPasses setBytes st.set = true
          ∧ st.set.word = st.counter.contents.code then some st.set.contents else none) ∧
    (t.cal.active = none → t.cells = [] ∧ t.decks.map (·.fault) = [some .uncalibrated] ∧ t.activeCode = none) ∧
    (∀ a, t.cal.active = some a →
      t.cells.map (·.const) = a.cellList ∧ t.decks.length = a.n ∧ t.activeCode = some st.set.word) ∧
    (recPasses setBytes st.set = true → t.cal.working = st.set.contents)

/-- The rest of the load. The serial and acknowledged records, and the VOID record the ring takes (R128, R143); the
pending records, handed on in order of first-pass serial (R145); and the log entries, of which those at or above the
newest ERASE entry and no greater than the counter are left, in counter order, unread (R142; that an entry beyond the
counter takes no part in the ERASE rule is the model's inference, notes/assumptions/35). -/
def Obligations.LoadJudgesTicketsAndLog : Prop :=
  (∀ m s, s.powered = false → Ends (exec (.powerUp m) s) fun t =>
     let i := s.mst.store.serial
     let a := s.mst.store.ack
     let taken := recPasses serialBytes a = true ∧ a.contents ≤ i.contents
     (recPasses serialBytes i = false → t.tku.serials = none ∧ t.tku.ring = []) ∧
     (recPasses serialBytes i = true → taken →
       t.tku.serials = some { issued := i.contents, acked := a.contents } ∧
       t.tku.ring = (if a.contents < i.contents
         then [{ record := .void (a.contents + 1) i.contents, sent := false }] else [])) ∧
     (recPasses serialBytes i = true → ¬taken →
       t.tku.serials = some { issued := i.contents, acked := i.contents } ∧ t.tku.ring = [] ∧
       t.gpt.notices[1]? = some { time := none, notice := .ackRecordLost i.contents })) ∧
  (∀ m s, s.powered = false → Ends (exec (.powerUp m) s) fun t =>
     let beyond := fun n => ∃ q, t.tku.serials = some q ∧ q.issued < n
     (t.tku.pending.Pairwise fun p q => p.inbound.serial ≤ q.inbound.serial) ∧
     (∀ p, p ∈ t.tku.pending ↔ ∃ r, s.mst.store.pending[p.recNo]? = some r ∧ recPasses pendingBytes r = true ∧
       ((r.contents = .entry p.inbound ∧ ¬beyond p.inbound.serial) ∨
         ∃ n, r.contents = .removed p.inbound n ∧ beyond n))) ∧
  (∀ m s, s.powered = false → Ends (exec (.powerUp m) s) fun t =>
     let good := fun (e : LogEntry) =>
       e.counter ≤ t.cal.counter ∧ ∃ (k : Nat) (r : Rec (Option LogEntry)), s.mst.store.log[k]? = some r ∧ recPasses logBytes r = true ∧ r.contents = some e
     (t.cal.log.Pairwise fun x y => x.entry.counter ≤ y.entry.counter) ∧
     (∀ x ∈ t.cal.log, x.read = false) ∧
     (∀ e, (∃ x ∈ t.cal.log, x.entry = e) ↔ good e ∧ ∀ e', good e' → e'.kind = .erase → e'.counter ≤ e.counter))

/-- The load judges the verification record of each deck below N (R144). -/
def Obligations.LoadJudgesStandings : Prop :=
  ∀ m s, s.powered = false → Ends (exec (.powerUp m) s) fun t =>
    t.aud.standings.length = t.decks.length ∧ t.gpt.time = none ∧
    (∀ d r, d < t.decks.length → s.mst.store.verif[d]? = some r →
      t.aud.standings[d]? = some (if recPasses standingBytes r = true then r.contents else .unverified)) ∧
    (t.cal.active = none → t.decks.length = 1 ∧ ∀ k ∈ t.decks, k.fault = some .uncalibrated) ∧
    (∀ x ∈ t.gpt.notices, (∃ m' p c w l, x.notice = .powerUp m' p c w l) ∨ (∃ n, x.notice = .ackRecordLost n) ∨
      ∃ k i n, x.notice = .pendingDropped k i n)

/-- The job being written. One handed to an empty queue is begun in the same operation, the next one as a job ends, and
one is being written exactly while one is queued (R133, R136); no other command but the two of the supply touches it.
Begun, it holds the values of R134 as they then stand: the serial after the last issued (R115), the time, counter and
check code, the expiry of R178, the log slot, the lowest free pending record and the log entry of R163; and its writes in
the order of R135, after the reconciling ones of R135 and R166. A record write in hand: POWER_LOSS leaves the store whole
but for the record being written, which may be torn (R132, R139); RECORD_WRITE_DONE before the end of a job begins the next
record where the read-back is equal, and a second attempt where it differs (R132, R135). What an interrupted write leaves is an operand of the row, between a first
read-back that differs and the second attempt the record is as it was, a change item of a node in both sets names the
working set's position, and a GROSS-IN that finds no free record writes none, the present check code of LOG-ERASE and SERIAL-RESTORE is that of the
counter record, and a serial begun after 4,294,967,295 is the next number: these are the model's choices
(notes/assumptions/7, 8, 25, 32, 12, 52); that a RESTORE entry counts two changes is its inference (notes/assumptions/33). -/
def Obligations.RecordsWrittenOrTorn : Prop :=
  (∀ left s, s.powered = true → Ends (exec (.powerLoss left) s) fun t =>
     t.powered = false ∧ t.pending = s.pending ∧ t.mst.jobs = [] ∧ t.mst.running = none ∧
     (s.mst.running = none → t.mst.store = s.mst.store) ∧
     (∀ r w ws, s.mst.running = some r → r.writes = w :: ws →
       t.mst.store = s.mst.store.lay left w ∧ (left = .old → t.mst.store = s.mst.store) ∧
       (∀ n, w = .serial n → left = .new →
         t.mst.store = { s.mst.store with serial := { contents := n, word := checkWord (serialBytes n) } }) ∧
       (∀ k p, w = .pending k p →
         t.mst.store = { s.mst.store with pending := t.mst.store.pending } ∧
         ∀ j, j ≠ k → t.mst.store.pending[j]? = s.mst.store.pending[j]?))) ∧
  (∀ s r j js, s.powered = true → s.mst.running = some r → s.mst.jobs = j :: js →
     (∀ w w' ws, r.writes = w :: w' :: ws → exec (.recordWriteDone .equal) s =
       .next { s with mst := { s.mst with
         store := s.mst.store.lay .new w
         running := some { r with writes := w' :: ws, written := r.written + 1, again := false } } }) ∧
     (∀ w ws left, r.writes = w :: ws → r.again = false → exec (.recordWriteDone (.differs left)) s =
       .next { s with mst := { s.mst with running := some { r with again := true } } })) ∧
  (∀ s t, s.FrontWritten → step s = .next t → t.FrontWritten) ∧
  (∀ c s t r, c.isSupply = false → exec c s = .next t → s.mst.running = none → t.mst.running = some r →
     ∃ j js, t.mst.jobs = j :: js ∧ BegunAs t j r) ∧
  (∀ c s t r, c.isSupply = false → (∀ b, c ≠ .recordWriteDone b) → exec c s = .next t → s.mst.running = some r →
     t.mst.running = some r) ∧
  (∀ s r0 j0 js0 w, s.powered = true → s.mst.running = some r0 → s.mst.jobs = j0 :: js0 → r0.writes = [w] →
     Ends (exec (.recordWriteDone .equal) s) fun t =>
       (t.mst.jobs = [] → t.mst.running = none) ∧
       ∀ j js, t.mst.jobs = j :: js → ∃ r, t.mst.running = some r ∧ BegunAs t j r)

/-! ### Frames -/

/-- A frame whole and with its right check word, arriving character by character, has the effect of the command its kind
and fields spell (R184, R185, R198, R200, R201). At a port that holds a part-assembled frame the characters join that
frame, for the row as for the characters (notes/assumptions/6). -/
def Obligations.FramesSpellCommands : Prop :=
  ∀ s : State, s.powered = true →
    let field := fun kind body => (frameBytes kind body).foldl (State.takeChar .field) s
    (∀ node scan raw temperature excitation status,
      exec (.cellFrame node scan raw temperature excitation status) s =
        .next (field 0x11#8 ([node, scan] ++ bytesOf 3 raw.toNat ++ bytesOf 2 temperature.toNat
          ++ bytesOf 2 excitation.toNat ++ [status]))) ∧
    (∀ b tA tB status,
      exec (.axleFrame b tA tB status) s =
        .next (field 0x12#8 ([b] ++ bytesOf 4 tA.toNat ++ bytesOf 4 tB.toNat ++ [status]))) ∧
    (∀ l i, exec (.identFrame l i) s = .next (field 0x13#8 (laneCode l :: bytesOf 8 i.toNat))) ∧
    (∀ l, exec (.laneKeyPrint l) s = .next (field 0x14#8 [laneCode l, 0#8])) ∧
    (∀ l, exec (.laneKeyCancel l) s = .next (field 0x14#8 [laneCode l, 1#8])) ∧
    (∀ tag kind args, args.length ≤ 509 → exec (.requestFrame tag kind args) s =
      .next ((frameBytes 0x21#8 (tag :: kind :: args)).foldl (State.takeChar .gatehouse) s))

/-- Frames that are discarded, arriving where no frame is part-assembled, each with the one count it raises, and nothing
else changed. At the port: the length its kind does not allow, then the check word, then the kind, then the lane and key
codes, and a pause within the frame (R184); at the scan controller, in the order of R4's table; at the axle tracker, in
the order of R47's table. -/
def Obligations.DiscardedFramesCounted : Prop :=
  (∀ (p : Port) (kind : Byte) (body word : List Byte) (s : State), s.powered = true → (s.receiver p).rx = [] →
     word.length = 2 → body.length < 65535 →
     let covered := bytesOf 2 (body.length + 1) ++ kind :: body
     let o := exec (.badFrame p (0xA5#8 :: (covered ++ word))) s
     (∀ lo hi, inwardLength p kind = some (lo, hi) → (body.length + 1 < lo ∨ hi < body.length + 1) →
       o = .next (s.modReceiver p fun r => { r with badLength := min (r.badLength + 1) 65535 })) ∧
     ((∀ lo hi, inwardLength p kind = some (lo, hi) → lo ≤ body.length + 1 ∧ body.length + 1 ≤ hi) →
       (word ≠ wordBytes (checkWord covered) →
         o = .next (s.modReceiver p fun r => { r with badCheck := min (r.badCheck + 1) 65535 })) ∧
       (word = wordBytes (checkWord covered) →
         (inwardLength p kind = none ∨
           (p = .field ∧ kind = 0x13#8 ∧ 1 < (body.getD 0 0).toNat) ∨
           (p = .field ∧ kind = 0x14#8 ∧ (1 < (body.getD 0 0).toNat ∨ 1 < (body.getD 1 0).toNat))) →
         o = .next (s.modReceiver p fun r => { r with unknownKind := min (r.unknownKind + 1) 65535 })))) ∧
  (∀ (p : Port) (chars : List Byte) (s : State), s.powered = true → (s.receiver p).rx = [] →
     (chars.length < 2 ∨ chars.length < natOf (chars.take 2) + 4) →
     exec (.framePause p (0xA5#8 :: chars)) s =
       .next (s.modReceiver p fun r => { r with rx := [], badLength := min (r.badLength + 1) 65535 })) ∧
  (∀ node scan raw temperature excitation status s, s.powered = true → s.fpt.inward.rx = [] →
     let place := s.cells.findIdx? fun c => c.const.node == node.toNat
     let o := exec (.cellFrame node scan raw temperature excitation status) s
     (place = none → o = .next { s with scn := { s.scn with unknownCell := min (s.scn.unknownCell + 1) 65535 } }) ∧
     (∀ i, place = some i → (s.scn.isOpen = false ∨ scan ≠ s.scn.number) →
       o = .next { s with scn := { s.scn with stale := min (s.scn.stale + 1) 65535 } }) ∧
     (∀ i c, place = some i → s.cells[i]? = some c → s.scn.isOpen = true → scan = s.scn.number →
       c.entry ≠ .notReplied →
       o = .next { s with scn := { s.scn with repeated := min (s.scn.repeated + 1) 65535 } })) ∧
  (∀ b tA tB status s, s.powered = true → s.fpt.inward.rx = [] →
     let o := exec (.axleFrame b tA tB status) s
     (s.decks.length < b.toNat →
       o = .next { s with axt := { s.axt with unknownBoundary := min (s.axt.unknownBoundary + 1) 65535 } }) ∧
     (∀ p, b.toNat ≤ s.decks.length → s.axt.last[b.toNat]? = some (some p) → p.tA = tA → p.tB = tB →
       o = .next { s with axt := { s.axt with repeated := min (s.axt.repeated + 1) 65535 } }))

/-- A REQUEST frame, arriving where no frame is part-assembled, joins the request queue, is answered QUEUE_FULL, or is
counted unanswered (R186); one longer than R198 allows is discarded as a bad-length frame (R184). -/
def Obligations.RequestFramesQueued : Prop :=
  ∀ tag kind args s, s.powered = true → s.gpt.inward.rx = [] →
    let r : Request := { tag := tag, kind := kind, args := args }
    let o := exec (.requestFrame tag kind args) s
    (509 < args.length → o = .next { s with gpt := { s.gpt with
      inward := { s.gpt.inward with badLength := min (s.gpt.inward.badLength + 1) 65535 } } }) ∧
    (args.length ≤ 509 →
      (s.gpt.requests.length < 4 → o = .next { s with gpt := { s.gpt with requests := s.gpt.requests ++ [r] } }) ∧
      (4 ≤ s.gpt.requests.length → s.gpt.responses.length < 4 →
        o = .next { s with gpt := { s.gpt with responses := s.gpt.responses ++
          [{ tag := tag, kind := kind, status := .queueFull, body := [] }] } }) ∧
      (4 ≤ s.gpt.requests.length → 4 ≤ s.gpt.responses.length →
        o = .next { s with gpt := { s.gpt with unanswered := min (s.gpt.unanswered + 1) 65535 } }))

/-! ### The scan and the cells -/

/-- SCAN_TIMER_EXPIRY: the open scan closes with its misses counted, and the next one opens (R2, R14). A cell that reaches
the miss limit faults for TIMEOUT, with its notice (R17); one that was CLEAR puts its deck in FAULT, unless it is in FAULT
already, with the deck's windows restarted (R28, R32); every other deck is as it was (R29). -/
def Obligations.ScanTimerOpensScan : Prop :=
  ∀ s, s.powered = true → Ends (exec .scanTimerExpiry s) fun t =>
    let out := fun (c : Cell) =>
      s.scn.isOpen = true ∧ c.entry = .notReplied ∧ s.missLimit ≤ min (c.misses + 1) 255
    let failing := fun d => ∃ (i : Nat) (c : Cell), s.cells[i]? = some c ∧ c.const.deck = d ∧ out c ∧ c.fault = none
    t.scn = { s.scn with
      number := if s.scn.isOpen = true then s.scn.number + 1 else s.scn.number
      isOpen := true
      timer := some s.scanPeriod } ∧
    t.fpt.scanWaiting = some t.scn.number ∧ t.cells.length = s.cells.length ∧
    (∀ k ∈ t.decks, k.scanLost = false) ∧
    (∀ (i : Nat) (c : Cell), s.cells[i]? = some c → ∃ c' : Cell, t.cells[i]? = some c' ∧ c'.entry = .notReplied ∧
      c'.const = c.const ∧ c'.mass = c.mass ∧ c'.last = c.last ∧ c'.flags = c.flags ∧ c'.temperature = c.temperature ∧
      c'.excitation = c.excitation ∧ c'.drift = c.drift ∧
      (if s.scn.isOpen = true ∧ c.entry = .notReplied then
        c'.misses = min (c.misses + 1) 255 ∧ c'.clearing = 0 ∧
          c'.fault = (if s.missLimit ≤ c'.misses then some .timeout else c.fault)
      else c'.misses = c.misses ∧ c'.clearing = c.clearing ∧ c'.fault = c.fault) ∧
      (out c → c.fault = none → c'.window = []) ∧ (¬failing c.const.deck → c'.window = c.window) ∧
      (out c → c.fault ≠ some .timeout → Noticed s t (.cellFault i c.const.node (some .timeout)))) ∧
    (∀ (d : Nat) (k : Deck), s.decks[d]? = some k →
      (failing d → k.fault = none → DeckRestarted t d k ∧ t.marked d = true) ∧
      (¬failing d ∨ k.fault ≠ none → ∃ k' : Deck, t.decks[d]? = some k' ∧
        k'.measured = { k.measured with scanLost := false }))

/-- The field line carries the waiting SCAN frame first, then the SIGNAL frames of the ENTRY and of the EXIT node with
their aspects by the tables of R85 and R86 (R87, R185). -/
def Obligations.FieldLineSends : Prop :=
  ∀ s, s.powered = true →
    (s.SlotsGrounded → AspectsAre s s.entryAspect s.exitAspect) ∧
    (∀ a, aspectCode a = placeIn [.enter, .stop, .hold, .reposition, .seeOffice, .go] a) ∧
    (∀ n, s.fpt.scanWaiting = some n → exec .sendScan s =
      .next { s with fpt := { s.fpt with scanWaiting := none, lineOut := frameBytes 0x01#8 [n] } }) ∧
    (s.fpt.scanWaiting = none → s.fpt.entryMark = true → exec .sendSignal s =
      .next { s with fpt := { s.fpt with
        entryMark := false, entrySent := some s.entryAspect
        lineOut := frameBytes 0x02#8 [0#8, aspectCode s.entryAspect] } }) ∧
    (s.fpt.scanWaiting = none → s.fpt.entryMark = false → s.fpt.exitMark = true → exec .sendSignal s =
      .next { s with fpt := { s.fpt with
        exitMark := false, exitSent := some s.exitAspect
        lineOut := frameBytes 0x02#8 [1#8, aspectCode s.exitAspect] } })

/-- An accepted CELL reply. With status OK it is converted and stored, feeds both monitors, and is OK or counts toward
clearing a fault; a CLEAR cell's raw window takes its count (R6, R12, R13, R16, R18). With another status, or contents out
of range, it faults the cell: OVERRANGE for an OVERRANGE reply in range, NODE for the rest, which give the monitors no
value (R5, R15, R18). The monitors' flags latch, and SUSPECT and WARN follow (R20, R21, R23). Each change of the fault
state is noticed (R17). A cell that enters FAULT, and a complete scan with a FAULTED entry, put the deck in FAULT with its
windows restarted (R26, R28, R32); a reply that does neither, nor completes its deck's scan, leaves every deck's record. -/
def Obligations.RepliesTaken : Prop :=
  (∀ node scan raw temperature excitation status s i c, ReplyAccepted s node scan i c →
     -400 ≤ temperature.toInt → temperature.toInt ≤ 850 → excitation.toNat ≤ 12000 → status = 0#8 →
     let d := c.const.deck
     let clears := c.fault ≠ none ∧ 2 ≤ c.clearing
     let broken := CompletesScan s i d ∧ ((c.fault ≠ none ∧ c.clearing < 2) ∨ OthersFaulted s i d)
     Ends (exec (.cellFrame node scan raw temperature excitation status) s) fun t =>
       OtherCellsKept s t i ∧ t.scn = s.scn ∧
       (∃ c' : Cell, t.cells[i]? = some c' ∧ c'.const = c.const ∧
         c'.mass = some (convert c.const raw.toInt) ∧ c'.misses = 0 ∧
         c'.last = some { raw := raw.toInt, temperature := temperature.toInt, excitation := excitation.toNat, status := .ok } ∧
         c'.temperature = some temperature.toInt ∧ c'.excitation = some (excitation.toNat : Int) ∧ c'.drift = c.drift ∧
         (c.fault = none → c'.fault = none ∧ c'.clearing = c.clearing ∧ c'.entry = .ok) ∧
         (c.fault ≠ none → c.clearing < 2 → c'.fault = c.fault ∧ c'.clearing = c.clearing + 1 ∧ c'.entry = .faulted) ∧
         (clears → c'.fault = none ∧ c'.clearing = 0 ∧ c'.entry = .ok) ∧
         FlagsLatched s t i c c' (fun k => match k with
           | .temperature => some temperature.toInt
           | .excitation => some (excitation.toNat : Int)
           | .drift => none) ∧
         (¬broken → c'.window = if c.fault = none
           then (c.window ++ [raw.toInt]).drop (c.window.length + 1 - s.filterLen) else c.window)) ∧
       (clears → Noticed s t (.cellFault i c.const.node none)) ∧
       (∀ k, s.decks[d]? = some k → broken → DeckRestarted t d k) ∧
       (∀ (j : Nat) (k : Deck), s.decks[j]? = some k → j ≠ d ∨ ¬CompletesScan s i d →
         ∃ k' : Deck, t.decks[j]? = some k' ∧ k'.measured = k.measured)) ∧
  (∀ node scan raw temperature excitation status s i c, ReplyAccepted s node scan i c →
     let d := c.const.deck
     let inRange := -400 ≤ temperature.toInt ∧ temperature.toInt ≤ 850 ∧ excitation.toNat ≤ 12000
     let tooFar := inRange ∧ status = 1#8
     let reason := fun (r : CellFault) => (tooFar → r = .overrange) ∧ (¬tooFar → r = .node)
     ¬(inRange ∧ status = 0#8) →
     Ends (exec (.cellFrame node scan raw temperature excitation status) s) fun t =>
       OtherCellsKept s t i ∧
       (∃ (c' : Cell) (r : CellFault), t.cells[i]? = some c' ∧ reason r ∧ c'.fault = some r ∧ c'.clearing = 0 ∧
         c'.misses = 0 ∧ c'.entry = .faulted ∧ c'.mass = c.mass ∧ (c.fault = none → c'.window = []) ∧
         (tooFar → c'.temperature = some temperature.toInt ∧ c'.excitation = some (excitation.toNat : Int) ∧
           FlagsLatched s t i c c' (fun k => match k with
             | .temperature => some temperature.toInt
             | .excitation => some (excitation.toNat : Int)
             | .drift => none)) ∧
         (¬tooFar → c'.temperature = c.temperature ∧ c'.excitation = c.excitation ∧ c'.flags = c.flags) ∧
         (c.fault ≠ some r → Noticed s t (.cellFault i c.const.node (some r)))) ∧
       (∀ k, s.decks[d]? = some k → (c.fault = none ∧ k.fault = none) ∨ CompletesScan s i d → DeckRestarted t d k) ∧
       (∀ (j : Nat) (k : Deck), s.decks[j]? = some k →
         j ≠ d ∨ (c.fault ≠ none ∨ k.fault ≠ none) ∧ ¬CompletesScan s i d →
         ∃ k' : Deck, t.decks[j]? = some k' ∧ k'.measured = k.measured))

/-- The reply that completes a scan of its deck with every entry OK, the third OK reply of a faulted cell among them
(R16), gives a deck sum: it joins the filter window, W is formed from the window, W joins the motion window, and motion is
judged (R26, R27, R30, R31). A deck with no zero takes W as its zero when it is STABLE and W is within a tenth of Max: its
status is then FRESH and its zero interval timer starts afresh (R33, R38); else zero, status and timer stand. UNTRACKED
clears as the initial zero is taken, and where the deck is STABLE with no more than half a division on it (R33, R39). -/
def Obligations.CompletedScanSums : Prop :=
  ∀ node scan raw temperature excitation s i c d k, ReplyAccepted s node scan i c →
    -400 ≤ temperature.toInt → temperature.toInt ≤ 850 → excitation.toNat ≤ 12000 → (c.fault = none ∨ 2 ≤ c.clearing) →
    c.const.deck = d → s.decks[d]? = some k → k.scanLost = false →
    (∀ j x, s.cells[j]? = some x → j ≠ i → x.const.deck = d → x.entry = .ok) →
    Ends (exec (.cellFrame node scan raw temperature excitation 0#8) s) fun t =>
      let masses := ((s.cells.set i { c with mass := some (convert c.const raw.toInt) }).filter
        fun x => x.const.deck == d).map fun x => x.mass.getD 0
      let filter := (k.filter ++ [saturate masses.sum]).drop (k.filter.length + 1 - s.filterLen)
      let w := roundDiv filter.sum filter.length
      let motion := (k.motionWin ++ [w]).drop (k.motionWin.length + 1 - s.stabilityLen)
      ∃ k' : Deck, t.decks[d]? = some k' ∧ k'.filter = filter ∧ k'.w = some w ∧ k'.motionWin = motion ∧
        (k'.motion = .stable ↔ motion.length = s.stabilityLen ∧ motion ≠ [] ∧
          ∀ x ∈ motion, ∀ y ∈ motion, 2 * (x - y) ≤ s.motionBand * s.division) ∧
        k'.fault = (if k.fault = some .cell then none else k.fault) ∧
        let takes := k.zero = none ∧ k'.motion = .stable ∧ 100 * |w| ≤ 10 * s.deckMax d
        (takes → k'.zero = some { z := w, init := w } ∧ k'.zeroStatus = .fresh ∧
          k'.interval = some ((s.setting 6).toNat * 60000)) ∧
        (¬takes → k'.zero = k.zero ∧ k'.zeroStatus = k.zeroStatus ∧ k'.interval = k.interval) ∧
        (k'.untracked = true ↔ k.untracked = true ∧ ¬takes ∧
          ¬(k'.motion = .stable ∧ ∃ g, k'.gross = some g ∧ 2 * |g| ≤ s.division))

/-- "Round" is to the nearest whole value, ties away from zero (00_scope.md 5). -/
def Obligations.RoundingTakesNearest : Prop :=
  ∀ n d : Int, 0 < d →
    2 * |n - d * roundDiv n d| ≤ d ∧ (2 * |n - d * roundDiv n d| = d → |n| ≤ d * |roundDiv n d|)

/-- The linearity correction of a span value, by the cases of R11, and the corrected value that goes on to the corner
factor. -/
def Obligations.LinearityCorrection : Prop :=
  ∀ (bs : List (Nat × Int)) (m : Int),
    let pts := ((0 : Nat), (0 : Int)) :: bs
    pts.Pairwise (fun p q => p.1 < q.1) →
    (bs = [] → correction bs m = 0) ∧
    (m ≤ 0 → correction bs m = 0) ∧
    (∀ i p q, pts[i]? = some p → pts[i + 1]? = some q → (p.1 : Int) < m → m ≤ q.1 →
      correction bs m = p.2 + roundDiv ((q.2 - p.2) * (m - p.1)) ((q.1 : Int) - p.1)) ∧
    (∀ p, pts.getLast? = some p → (p.1 : Int) < m → correction bs m = p.2) ∧
    (∀ p ∈ pts, m = (p.1 : Int) → correction bs m = p.2) ∧
    (∀ (c : CellConst) (raw : Int), c.breaks = bs →
      m = saturate (roundDiv ((raw - c.zero) * c.span) 65536) →
      convert c raw = saturate (roundDiv (saturate (m - correction bs m) * c.corner) 16384))

/-! ### Decks -/

/-- ZERO (d), by R37: a number that names no deck is answered BAD_INDEX; a deck with any of the table's reasons,
NOT_READY with each of them, in the order of R37's table, which is the model's choice (notes/assumptions/26); and one whose W lies beyond 2% of Max from the initial zero, ZERO_RANGE with nothing changed.
Else the deck's zero becomes W, its status FRESH, and its zero interval timer starts. ZERO_SETTLE_EXPIRY: a zero check
feeds the DRIFT monitor of the deck's cells, whose flags latch (R19, R20, R21, R23), then judges the gross: within half a
division the zero follows W if W lies within 2% of Max of the initial zero, else ZERO_RANGE is raised; beyond half a
division RESIDUE is raised (R35, R36). -/
def Obligations.ZerosSet : Prop :=
  (∀ tag d s,
     let r : Request := { tag := tag, kind := 3#8, args := [d] }
     let o := exec (.zero tag d) s
     s.canExecute r = true →
     (s.decks.length ≤ d.toNat → o = .next (s.popRequest.answer r .badIndex [])) ∧
     (∀ k, s.decks[d.toNat]? = some k →
       let reasons := reasonsWhere
         [(.fault, decide (k.fault ≠ none)), (.nozero, decide (k.zero = none)), (.moving, decide (k.motion ≠ .stable)),
          (.axles, !s.axleFree d.toNat), (.claimed, decide (s.claimOf d.toNat ≠ .none))]
       (reasons ≠ [] → o = .next (s.popRequest.answer r .notReady (reasonSet reasons))) ∧
       (reasons = [] → ∀ z w, k.zero = some z → k.w = some w →
         (100 * |w - z.init| ≤ 2 * s.deckMax d.toNat → Ends o fun t =>
           Replied s t r .ok (massBytes w) ∧ OtherZerosKept s t d.toNat ∧
           ∃ k' : Deck, t.decks[d.toNat]? = some k' ∧ k'.zero = some { z := w, init := z.init } ∧
             k'.zeroStatus = .fresh ∧ k'.interval = some s.zeroIntervalMs ∧ k'.w = some w ∧ k'.filter = k.filter ∧
             k'.motionWin = k.motionWin) ∧
         (2 * s.deckMax d.toNat < 100 * |w - z.init| → o = .next (s.popRequest.answer r .zeroRange []))))) ∧
  (∀ d s k z w, s.powered = true → s.decks[d]? = some k → k.settle ≠ none → k.fault = none → k.zero = some z →
     k.w = some w →
     let g := saturate (w - z.z)
     let small := 2 * |g| ≤ s.division
     let near := 100 * |w - z.init| ≤ 2 * s.deckMax d
     Ends (exec (.zeroSettleExpiry d) s) fun t =>
       OtherZerosKept s t d ∧
       (∃ k' : Deck, t.decks[d]? = some k' ∧
         (s.axleFree d = true → k.motion = .stable → k'.checked = true ∧ k'.settle = none) ∧
         (small → near → k'.zero = some { z := w, init := z.init } ∧ k'.zeroStatus = .fresh ∧
           k'.interval = some s.zeroIntervalMs) ∧
         (¬(small ∧ near) → k'.zero = k.zero ∧ k'.zeroStatus = k.zeroStatus ∧ k'.interval = k.interval)) ∧
       (small → ¬near → Noticed s t (.zeroRange d w z.init)) ∧ (¬small → Noticed s t (.residue d g)) ∧
       (∀ (i : Nat) (c : Cell), s.cells[i]? = some c → ∃ c' : Cell, t.cells[i]? = some c' ∧ c'.mass = c.mass ∧
         c'.window = c.window ∧ c'.drift = (if c.const.deck = d ∧ c.mass ≠ none then c.mass else c.drift) ∧
         FlagsLatched s t i c c' fun kind => if kind = .drift ∧ c.const.deck = d then c.mass else none))

/-- The timers of a deck. The zero interval, the report delay and the maximum interval at their expiry (R38, R44, R45).
The settle timer: none runs but while R35's conditions hold, and when they come to hold by a command other than a
link reset it starts with the settle time (R35, R41). Reports: one is due as soon as anything R43 watches has changed; a
change of the reported gross alone starts the report delay timer if it is not running, and leaves the mark (R43, R44).
That each of these is judged once, at the end of an operation, is the model's inference (notes/assumptions/13, 14). -/
def Obligations.DeckTimersExpire : Prop :=
  (∀ d s k, s.powered = true → s.decks[d]? = some k →
    (k.interval ≠ none → Ends (exec (.zeroIntervalExpiry d) s) fun t =>
      Noticed s t (.zeroStale d) ∧ OtherZerosKept s t d ∧
      ∃ k' : Deck, t.decks[d]? = some k' ∧ k'.zeroStatus = .stale ∧ k'.interval = none ∧ k'.zero = k.zero ∧
        (k.zeroStatus = .fresh → k'.reportMark = true)) ∧
    (k.delay ≠ none → exec (.reportDelayExpiry d) s =
      .next { s with decks := s.decks.set d { k with delay := none, reportMark := true } }) ∧
    (k.maxInterval ≠ none → exec (.maximumIntervalExpiry d) s =
      .next { s with decks := s.decks.set d { k with maxInterval := none, reportMark := true } })) ∧
  ((∀ s t, s.SettleHeld → step s = .next t → t.SettleHeld) ∧
   (∀ c s t d k k', c.isSupply = false → (∀ tag, c ≠ .reset tag 0#8) → s.SettleHeld → exec c s = .next t →
     s.decks[d]? = some k → t.decks[d]? = some k' → t.SettleRuns d k' → k'.checked = false →
     (¬(s.SettleRuns d k ∧ k.checked = false) → k'.settle = some ((s.setting 5).toNat * 1000)) ∧
     (OneOperation c s → k.settle ≠ none → k'.settle = k.settle))) ∧
  ((∀ c s t d k', c.isSupply = false → exec c s = .next t → t.decks[d]? = some k' → ReportDue s t d →
     k'.reportMark = true) ∧
   (∀ c s t d k k', c.isSupply = false → (∀ tag, c ≠ .reset tag 0#8) → OneOperation c s → exec c s = .next t →
     s.decks[d]? = some k → t.decks[d]? = some k' → ¬ReportDue s t d → shownGross s d k ≠ shownGross t d k' →
     k'.reportMark = k.reportMark ∧ k'.delay = some (k.delay.getD (s.setting 16).toNat)))

/-! ### Axles -/

/-- What one crossing does. Its direction, duration and suspect standing are read from its stamps, across the wrap, and
its status, and a suspect one is counted (R48, R49). To the bridge line, as owners and decks: at the entry an axle joins at
the rear as the claim of deck 0 says, and leaves by the stray rule; between decks the front-most or rear-most entry moves;
at the exit it leaves, or returns at the front; an empty source deck, or no room, leaves the line and counts an untracked
crossing (R53 to R57, R63). A listed axle that moves or joins takes the crossing's duration and suspect mark, and the
boundary's record names it, and names none where no listed axle moved or joined (R51, R52, R59). New strays, and strays moved onto a claimed deck, are noticed (R58; that the
latter carries the claimant as its cause is the model's choice, notes/assumptions/19). Spacings are those R60 measures, and
else stand, the front axle of a list having none; that R60 measures the second of two returns at boundary N is the model's
choice, and so is the audit traffic that a dropped stray counts as (notes/assumptions/50, 51). -/
def Obligations.CrossingsMoveEntries : Prop :=
  ∀ b tA tB status s, s.powered = true → s.fpt.inward.rx = [] → b.toNat ≤ s.decks.length →
    (∀ p, s.axt.last[b.toNat]? = some (some p) → ¬(p.tA = tA ∧ p.tB = tB)) →
    let n := s.decks.length
    let d := (tB.toNat + 4294967296 - tA.toNat) % 4294967296
    let fwd := 1 ≤ d ∧ d ≤ 2147483647
    let duration := if fwd then d else (tA.toNat + 4294967296 - tB.toNat) % 4294967296
    let suspect := decide (duration = 0 ∨ 2000000 < duration ∨ status ≠ 0#8)
    Ends (exec (.axleFrame b tA tB status) s) fun t =>
      let counted := fun d => t.lineShape = s.lineShape ∧ UntrackedCounted s t d
      let joined := fun (u : SlotId) (g : Nat) (front : Bool) =>
        let place := if front = true then 0 else s.axt.line.length
        (t.lineShape = if front = true then (some u, g) :: s.lineShape else s.lineShape ++ [(some u, g)]) ∧
        ((s.axleList u).length < 12 → t.axt.nextAxle = s.axt.nextAxle + 1 ∧
          ∃ a : AxleRec, t.axt.line[place]? = some { owner := .listed u a, deck := g } ∧ a.name = s.axt.nextAxle ∧
            a.duration = duration ∧ a.suspect = suspect) ∧
        (12 ≤ (s.axleList u).length → t.axt.line[place]? = some { owner := .overflow u, deck := g } ∧
          (t.slot u).axleOverflow = true)
      ((∀ q, t.axt.last[b.toNat]? = some q → ∃ p, q = some p ∧ p.tA = tA ∧ p.tB = tB ∧ (p.dir = .forward ↔ fwd) ∧
          p.duration = duration ∧ p.suspect = suspect ∧
          (∀ u x, p.axle = some (u, x) ↔ CrossingLeaves s b.toNat (decide fwd) u x) ∧
          ∀ u x, p.axle = some (u, x) → ∃ a ∈ t.axleList u, a.1.name = x ∧ a.1.duration = duration ∧
            a.1.suspect = suspect) ∧
        t.axt.suspect = if suspect = true then min (s.axt.suspect + 1) 65535 else s.axt.suspect) ∧
      (fwd → b.toNat = 0 →
        (∀ u, s.claimOf 0 = .slot u → JoinsLine s u → joined u 0 false) ∧
        (∀ u, s.claimOf 0 = .slot u → ¬JoinsLine s u → counted 0) ∧
        (∀ u, s.claimOf 0 = .none → s.openAnswer = .opened u → JoinsLine s u → joined u 0 false) ∧
        ((s.claimOf 0 = .audit ∨ s.claimOf 0 = .none ∧ ∀ u, s.openAnswer ≠ .opened u) →
          (s.strayRoom = true → t.lineShape = s.lineShape ++ [(none, 0)] ∧
            Noticed s t (.intrusion 0 (if s.claimOf 0 = .audit then .claimed
              else if s.slc.slot0.state ≠ .free ∧ s.slc.slot1.state ≠ .free then .noSlot else .refused))) ∧
          (s.strayRoom = false → counted 0))) ∧
      (fwd → 1 ≤ b.toNat →
        (s.frontOn (b.toNat - 1) = none → counted (b.toNat - 1)) ∧
        (∀ i, s.frontOn (b.toNat - 1) = some i → b.toNat < n →
          t.lineShape = s.lineShape.modify i fun x => (x.1, b.toNat)) ∧
        (∀ i, s.frontOn (b.toNat - 1) = some i → b.toNat = n → t.lineShape = s.lineShape.eraseIdx i)) ∧
      (¬fwd → b.toNat = 0 →
        (s.leaverAtEntry = none → counted 0) ∧
        (∀ i, s.leaverAtEntry = some i → t.lineShape = s.lineShape.eraseIdx i)) ∧
      (¬fwd → 1 ≤ b.toNat → b.toNat < n →
        (s.rearOn b.toNat = none → counted b.toNat) ∧
        (∀ i, s.rearOn b.toNat = some i → t.lineShape = s.lineShape.modify i fun x => (x.1, b.toNat - 1))) ∧
      (¬fwd → 1 ≤ b.toNat → b.toNat = n →
        (∀ u, s.claimOf (n - 1) = .slot u → JoinsLine s u → joined u (n - 1) true) ∧
        (∀ u, s.claimOf (n - 1) = .slot u → ¬JoinsLine s u → counted (n - 1)) ∧
        ((∀ u, s.claimOf (n - 1) ≠ .slot u) →
          (s.strayRoom = true → t.lineShape = (none, n - 1) :: s.lineShape ∧
            Noticed s t (.intrusion (n - 1) .claimed)) ∧
          (s.strayRoom = false → counted (n - 1)))) ∧
      (∀ i x g, s.crossingMover b.toNat (decide fwd) = some i → s.axt.line[i]? = some x →
        s.crossingReach b.toNat (decide fwd) = some g →
        (∀ u a, x.owner = .listed u a → ∃ a' : AxleRec, t.axt.line[i]? = some { owner := .listed u a', deck := g } ∧
          a'.name = a.name ∧ a'.duration = duration ∧ a'.suspect = suspect) ∧
        (x.owner = .stray → s.claimOf g ≠ .none → Noticed s t (.intrusionMove g (s.claimOf g)))) ∧
      (s.NamesFresh → ∀ u, (∀ a, (t.axleList u).head? = some a → a.1.spacing = none) ∧
        ∀ a ∈ (t.axleList u).tail,
          let measured := SpacingMeasured s t b.toNat tA (decide fwd) suspect duration u a.1.name
          (∀ v, measured v → a.1.spacing = some v) ∧
          ((∀ v, ¬measured v) → a.1.spacing = (s.axleNamed a.1.name).bind (·.spacing)))

/-- What a crossing makes of the slots and their claims. At the entry of an unclaimed deck 0 that lets R68's conditions
hold, the FREE slot opens: MOVING, with deck 0 alone, the waiting identity taken. An axle of a slot that moves claims the
deck it reaches where R65 lets it (R73); the slot's run is then cut to the decks from its first to its last that carry its
axles (R74); where that releases a deck, unclaimed decks go to the other slot where its axles stand on them and it may
claim them, a deck not released by it among them, which is the model's choice (R75, notes/assumptions/56). The slot's
quiet timer starts afresh and a POSITIONED slot is MOVING again, but a slot with no axle left becomes FREE unless it is
ISSUING (R70, R71, R76). The other slot keeps its state and its claims, the audit run its decks. A crossing that moves no
slot's axle changes neither, but that a change of strays offers unclaimed decks to the axles on them, also those claimable
before it and also where a count only rises, which is the model's choice (R75, R76, notes/assumptions/59). -/
def Obligations.MovesClaimDecks : Prop :=
  ∀ b tA tB status s, s.powered = true → s.fpt.inward.rx = [] → b.toNat ≤ s.decks.length →
    (∀ p, s.axt.last[b.toNat]? = some (some p) → ¬(p.tA = tA ∧ p.tB = tB)) →
    let d := (tB.toNat + 4294967296 - tA.toNat) % 4294967296
    let fwd := decide (1 ≤ d ∧ d ≤ 2147483647)
    let opens := fun u => fwd = true ∧ b = 0#8 ∧ (s.slot u).state = .free ∧ (u = .slot1 → s.slc.slot0.state ≠ .free) ∧
      0 < s.slc.claims.length ∧ s.claimOf 0 = .none ∧ s.strayCount 0 = 0 ∧
      (∀ k, s.decks[0]? = some k → k.untracked = false) ∧ s.slc.commitMark = false
    Ends (exec (.axleFrame b tA tB status) s) fun t =>
      (∀ d, t.claimOf d = .audit ↔ s.claimOf d = .audit) ∧
      (∀ u, s.SlotsGrounded → opens u →
        t.slc.claims = s.slc.claims.set 0 (.slot u) ∧ (t.slot (otherSlot u)).held = (s.slot (otherSlot u)).held ∧
        (t.slot u).state = .moving ∧ (t.slot u).quiet = false ∧ (t.slot u).quietTimer = some s.quietMs ∧
        (t.slot u).overHeld = false ∧ (t.slot u).axleOverflow = false ∧ t.slc.waiting = none ∧
        (s.slc.waiting = none → (t.slot u).identity = none) ∧
        (∀ i, s.slc.waiting = some i → (s.slot (otherSlot u)).identity ≠ some i → (t.slot u).identity = some i ∧
          (t.slot u).permit = s.permitOf i)) ∧
      (∀ u, MovesAxleOf s b.toNat fwd u →
        let o := otherSlot u
        let mine := fun d => s.claimOf d = .slot u ∨ s.crossingReach b.toNat fwd = some d ∧ Claimable s u d
        let released := ∃ d, s.claimOf d = .slot u ∧ t.claimOf d ≠ .slot u
        (∀ d, t.claimOf d = .slot u ↔ mine d ∧ (∃ x, x ≤ d ∧ mine x ∧ t.hasAxleOn u x = true) ∧
          ∃ y, d ≤ y ∧ mine y ∧ t.hasAxleOn u y = true) ∧
        (∀ d, s.claimOf d = .slot o → t.claimOf d = .slot o) ∧
        (∀ d, t.claimOf d = .slot o → s.claimOf d = .slot o ∨
          released ∧ t.hasAxleOn o d = true ∧ (s.claimOf d = .none ∨ s.claimOf d = .slot u)) ∧
        (released → ∀ d, t.hasAxleOn o d = true → ¬Claimable t o d) ∧
        (t.slot o).held = (s.slot o).held ∧
        (t.hasAxles u = true ∨ (s.slot u).state = .issuing →
          (t.slot u).quiet = false ∧ (t.slot u).quietTimer = some s.quietMs ∧ SameIdentity (s.slot u) (t.slot u) ∧
          (t.slot u).state = if (s.slot u).state = .positioned then .moving else (s.slot u).state) ∧
        (t.hasAxles u = false → (s.slot u).state ≠ .issuing → (s.slot u).state ≠ .free →
          (t.slot u).held = freeSlot.held)) ∧
      ((∀ u, ¬MovesAxleOf s b.toNat fwd u) → (∀ u, ¬opens u) →
        (∀ u, (t.slot u).held = (s.slot u).held) ∧ (∀ d, s.claimOf d ≠ .none → t.claimOf d = s.claimOf d) ∧
        ((∀ d, t.strayCount d = s.strayCount d) → t.slc.claims = s.slc.claims) ∧
        ∀ u d, (t.claimOf d = .slot u → s.claimOf d = .slot u ∨ t.hasAxleOn u d = true) ∧
          ((∃ d, t.strayCount d ≠ s.strayCount d) → t.hasAxleOn u d = true → ¬Claimable t u d))

/-- Along the bridge line, front to rear, deck numbers do not rise, and every entry stands on a deck there is, at the end
of every step (R50). It rests on three more that every step keeps: there is a deck, and every set the store or a write may
yet make the active one has one (R149); a FREE slot has no axle, a slot without an axle no claim, and while a COMMIT waits
both slots are FREE (R65, R71, R74, R157); and the axles on the line have names of their own, below the next one. -/
def Obligations.LineKeepsOrder : Prop :=
  (∀ s t, s.LineOrdered → s.SlotsGrounded → s.DecksThere → step s = .next t → t.LineOrdered) ∧
  (∀ s t, s.DecksThere → step s = .next t → t.DecksThere) ∧
  (∀ s t, s.OneJobEach → s.SlotsGrounded → step s = .next t → t.SlotsGrounded) ∧
  (∀ s t, s.NamesFresh → step s = .next t → t.NamesFresh)

/-- The grouping of a list of axles is the list cut into groups: each following axle joins the group ahead of it when
its spacing is known and no more than the group gap, and else opens one (R61). -/
def Obligations.GroupingCuts : Prop :=
  ∀ (gap : Nat) (l : List (AxleRec × Nat)),
    let joins := fun (a : AxleRec × Nat) => ∃ v, a.1.spacing = some v ∧ v ≤ gap
    (groupsOf gap l).flatten = l ∧ (∀ g ∈ groupsOf gap l, g ≠ [] ∧ ∀ a ∈ g.tail, joins a) ∧
    (∀ g ∈ (groupsOf gap l).tail, ∀ a, g.head? = some a → ¬joins a)

/-! ### Slots and lanes -/

/-- QUIET_TIMER_EXPIRY: the quiet mark is set, and a MOVING slot becomes POSITIONED, with its check computed (R69, R92). -/
def Obligations.QuietTimerPositions : Prop :=
  ∀ u s, s.powered = true → (s.slot u).quietTimer ≠ none → Ends (exec (.quietTimerExpiry u) s) fun t =>
    (t.slot u).quiet = true ∧ (t.slot u).quietTimer = none ∧ SameIdentity (s.slot u) (t.slot u) ∧
    ((s.slot u).state = .moving → (t.slot u).state = .positioned ∧ (t.slot u).check = .current (t.computeCheck u)) ∧
    ((s.slot u).state ≠ .moving → (t.slot u).state = (s.slot u).state) ∧
    (t.slot (otherSlot u)).held = (s.slot (otherSlot u)).held ∧ t.slc.claims = s.slc.claims

/-- IDENT_FRAME, by the cases of R80: discarded, attached (R79), a repeated read, or held as the waiting identity; at a
field port that holds no part-assembled frame. -/
def Obligations.IdentitiesTaken : Prop :=
  ∀ l i s, s.powered = true → s.fpt.inward.rx = [] →
    let o := exec (.identFrame l i) s
    ((l = .exit ∨ i = 0#64) → o = .next s) ∧
    (l = .entry → i ≠ 0#64 →
      (∀ u, s.entrySlot = some u → (s.slot (otherSlot u)).identity ≠ some i → Ends o fun t =>
        (t.slot u).identity = some i ∧ (t.slot u).permit = s.permitOf i ∧
        (t.slot u).barred = ((s.permitOf i).isNone && s.barFlag (flagNumber i)) ∧
        (t.slot u).state = (s.slot u).state ∧
        ((t.slot u).barred = true → Noticed s t (.barred u i (flagNumber i)))) ∧
      (∀ u, s.entrySlot = some u → (s.slot (otherSlot u)).identity = some i → Ends o fun t =>
        (t.slot u).identity = none ∧ Noticed s t (.duplicateId u i)) ∧
      (s.entrySlot = none → (s.slc.slot0.identity = some i ∨ s.slc.slot1.identity = some i) → o = .next s) ∧
      (s.entrySlot = none → s.slc.slot0.identity ≠ some i → s.slc.slot1.identity ≠ some i →
        o = .next { s with slc := { s.slc with waiting := some i, waitingTimer := some s.waitingMs } }))

/-- The waiting identity: a new one replaces an older one and starts the lifetime timer afresh with the setting of 10 to
120 s, by default 60 s; at expiry it is dropped, and nothing else happens; an opening clears it, and takes it where the
other slot does not hold it; its attachment by another path drops it; none is held at power-up or after a link reset
(R81). -/
def Obligations.WaitingIdentityHeld : Prop :=
  (∀ (s : State) i, (s.holdIdentity i).slc.waiting = some i ∧
    (s.holdIdentity i).slc.waitingTimer = some ((s.setting 18).toNat * 1000) ∧
    { (s.holdIdentity i) with slc := s.slc } = s) ∧
  (settingRange 18 = some (10, 120) ∧ State.reset.setting 18 = 60) ∧
  (∀ s i, s.powered = true → s.entrySlot = none → i ≠ 0#64 → s.slc.slot0.identity ≠ some i →
    s.slc.slot1.identity ≠ some i → s.fpt.inward.rx = [] →
    exec (.identFrame .entry i) s = .next (s.holdIdentity i)) ∧
  (∀ s, s.powered = true → s.slc.waitingTimer ≠ none → exec .waitingIdentityExpiry s =
    .next { s with slc := { s.slc with waiting := none, waitingTimer := none } }) ∧
  (∀ (s : State) u, (s.openSlot u).slc.waiting = none ∧
    (s.slc.waiting = none → ((s.openSlot u).slot u).identity = none) ∧
    (∀ i, s.slc.waiting = some i → (s.openSlot u).slc.waitingTimer = none ∧
      ((s.slot (otherSlot u)).identity ≠ some i → ((s.openSlot u).slot u).identity = some i)) ∧
    (∀ i, s.slc.waiting = some i → (s.slot (otherSlot u)).identity ≠ some i →
      (s.attach u i).slc.waiting = none ∧ (s.attach u i).slc.waitingTimer = none)) ∧
  (∀ m s, s.powered = false → Ends (exec (.powerUp m) s) fun t =>
    t.slc.waiting = none ∧ t.slc.waitingTimer = none) ∧
  (∀ tag s, s.canExecute { tag := tag, kind := 20#8, args := [0#8] } = true → Ends (exec (.reset tag 0#8) s) fun t =>
    t.slc.waiting = none ∧ t.slc.waitingTimer = none)

/-- ABORT-SLOT by the table of R83, and the CANCEL key on the slot that claims the lane's deck, at a field port that holds
no part-assembled frame. -/
def Obligations.SlotsAborted : Prop :=
  (∀ tag n s, s.canExecute { tag := tag, kind := 5#8, args := [n] } = true →
    let r : Request := { tag := tag, kind := 5#8, args := [n] }
    let o := exec (.abortSlot tag n) s
    (1 < n.toNat → o = .next (s.popRequest.answer r .badIndex [])) ∧
    ∀ u, n = slotCode u →
      ((s.slot u).state = .free → o = .next (s.popRequest.answer r .notReady (reasonSet [.slotState]))) ∧
      ((s.slot u).state = .issuing → o = .next (s.popRequest.answer r .busy [])) ∧
      ((s.slot u).state ≠ .free → (s.slot u).state ≠ .issuing → Ends o fun t =>
        Replied s t r .ok [] ∧ TransactionEnded s t u)) ∧
  (∀ l s, s.powered = true → s.fpt.inward.rx = [] →
    (∀ u, s.laneSlot l = some u → (s.slot u).state ≠ .free → (s.slot u).state ≠ .issuing →
      Ends (exec (.laneKeyCancel l) s) fun t => TransactionEnded s t u ∧ t.gpt.responses = s.gpt.responses) ∧
    ((s.laneSlot l = none ∨ ∃ u, s.laneSlot l = some u ∧ (s.slot u).state = .issuing) →
      exec (.laneKeyCancel l) s = .next s))

/-- RE-IDENT, by R82, always answered: BAD_INDEX, BAD_VALUE, NOT_READY with each of its two reasons that holds, DUPLICATE,
or OK with the identity attached (R79). That the slot number is judged before the identity, that SLOT_STATE stands before
HAS_IDENTITY in the answer's body, and what the OK answer's body holds are the model's choices (notes/assumptions/4, 26,
38). -/
def Obligations.ReIdentAttaches : Prop :=
  ∀ tag n i s, s.canExecute { tag := tag, kind := 4#8, args := n :: bytesOf 8 i.toNat } = true →
    let r : Request := { tag := tag, kind := 4#8, args := n :: bytesOf 8 i.toNat }
    let o := exec (.reIdent tag n i) s
    (1 < n.toNat → o = .next (s.popRequest.answer r .badIndex [])) ∧
    ∀ u, n = slotCode u →
      let reasons := reasonsWhere
        [(.slotState, decide ((s.slot u).state ≠ .moving ∧ (s.slot u).state ≠ .positioned)),
         (.hasIdentity, decide ((s.slot u).identity ≠ none))]
      (i = 0#64 → o = .next (s.popRequest.answer r .badValue [])) ∧
      (i ≠ 0#64 → reasons ≠ [] → o = .next (s.popRequest.answer r .notReady (reasonSet reasons))) ∧
      (i ≠ 0#64 → reasons = [] → (s.slot (otherSlot u)).identity ≠ some i → Ends o fun t =>
        (t.slot u).identity = some i ∧ (t.slot u).permit = s.permitOf i ∧
        (t.slot u).barred = ((s.permitOf i).isNone && s.barFlag (flagNumber i)) ∧
        (t.slot u).state = (s.slot u).state ∧
        Replied s t r .ok (identOutcome (t.slot u)) ∧
        (s.slc.waiting = some i → t.slc.waiting = none ∧ t.slc.waitingTimer = none)) ∧
      (i ≠ 0#64 → reasons = [] → (s.slot (otherSlot u)).identity = some i → Ends o fun t =>
        (t.slot u).identity = none ∧ Replied s t r .duplicate [] ∧ Noticed s t (.duplicateId u i))

/-- CLEAR-STRAYS: every stray leaves the bridge line, the answer counts them, and no slot is left with an axle on a deck it
may claim (R58, R75, R84); that a deck claimable already before is offered with those that have become so is the model's
choice (notes/assumptions/59). -/
def Obligations.StraysCleared : Prop :=
  ∀ tag s, s.canExecute { tag := tag, kind := 6#8, args := [] } = true → Ends (exec (.clearStrays tag) s) fun t =>
    Replied s t { tag := tag, kind := 6#8, args := [] } .ok
      (bytesOf 4 (s.lineShape.filter fun x => x.1.isNone).length) ∧
    t.lineShape = s.lineShape.filter (fun x => x.1.isSome) ∧ (∀ d, t.strayCount d = 0) ∧
    (∀ d, t.axleCount d = s.axleCount d) ∧ (∀ u d, t.hasAxleOn u d = true → ¬Claimable t u d) ∧
    t.MarksTrue ∧ t.LanesTold

/-- No identity is ever attached to both slots (R79). -/
def Obligations.IdentitiesStayApart : Prop :=
  ∀ s t, s.IdentitiesApart → step s = .next t → t.IdentitiesApart

/-- SPAN_BREACH and INTRUDED are true at the end of every step; a SPAN_BREACH newly set is noticed with the slot, the
front-most deck on which it has an axle without a claim, and the first of R72's causes found there; and none is noticed
else (R72). That NOT_ADJACENT also stands where no cause of the table holds is the model's choice
(notes/assumptions/16). -/
def Obligations.MarksStayTrue : Prop :=
  (∀ s t, s.MarksTrue → step s = .next t → t.MarksTrue) ∧
  ∀ c s t, c.isSupply = false → OneOperation c s → exec c s = .next t →
    (∀ u, (s.slot u).spanBreach = false → (t.slot u).spanBreach = true →
      ∃ d cause, BreachesOn t u d ∧ BreachCauseIs t d cause ∧ Noticed s t (.spanBreach u d cause)) ∧
    (s.MarksTrue → s.SlotsGrounded → ∀ x ∈ t.gpt.notices, ∀ u d cause, x.notice = .spanBreach u d cause →
      x ∈ s.gpt.notices ∨ (s.slot u).spanBreach = false ∧ (t.slot u).spanBreach = true)

/-- A lane node whose mark is clear has its present aspect, at the end of every step (R87): at the entry ENTER or STOP as
R85 has it, at the exit the first aspect of R86's table that applies. -/
def Obligations.LanesStayTold : Prop :=
  (∀ s t, s.LanesTold → step s = .next t → t.LanesTold) ∧
  ∀ s : State, s.SlotsGrounded → AspectsAre s s.entryAspect s.exitAspect

/-- The standing of each slot's check follows the slot's state, at the end of every step. A slot left POSITIONED by an
operation that brought one of R92's events has its check computed from the state as it now stands; by one that brought
none, and neither captured for a finalization nor wrote a permit entry, it keeps its check. A slot that leaves POSITIONED
for LEAVING keeps its check FROZEN (R92, R102). That an event is what shows between the state before an operation and the
state after it, at its end, is the model's inference (notes/assumptions/13, 29). -/
def Obligations.ChecksKeepStanding : Prop :=
  (∀ s t, s.ChecksStand → step s = .next t → t.ChecksStand) ∧
  ∀ c s t u, c.isSupply = false → (∀ tag, c ≠ .reset tag 0#8) → OneOperation c s → exec c s = .next t →
    let computes := (∃ tag n kind, c = .finalize tag n kind) ∨ (∃ l, c = .laneKeyPrint l) ∨
      (∃ tag i contents, c = .writeEntryPermits tag i contents) ∨ ∃ b, c = .recordWriteDone b
    ((t.slot u).state = .positioned → CheckEvent s t u → (t.slot u).check = .current (t.computeCheck u)) ∧
    ((t.slot u).state = .positioned → ¬CheckEvent s t u → ¬computes → (t.slot u).check = (s.slot u).check) ∧
    (∀ x, (s.slot u).state = .positioned → (s.slot u).check = .current x → (t.slot u).state = .leaving →
      (t.slot u).check = .frozen x)

/-! ### Checks -/

/-- A computed check. Its class: that of the slot's permit, else the first of the detected pattern (R62, R93). One entry
of the group list for each group position of the class, in order (R91): without axles and load under AXLE_OVERFLOW and
under a permit whose pattern differs, else laid against the detected group of that place, with its run and its load or
reason (R94 to R96). The vehicle gross of the claimed run, or its reason (R97). Each group's load and the gross against
their limits and ceilings (R98, R99), and the overall verdict by the first case that applies (R100). -/
def Obligations.VerdictsFollowLimits : Prop :=
  ∀ (s : State) (u : SlotId),
    let c := s.computeCheck u
    let detected := s.grouping u
    let pattern := detected.map fun g => match g.length with
      | 1 => GroupType.single
      | 2 => .tandem
      | 3 => .tri
      | 4 => .quad
      | _ => .invalid
    let lost := (s.slot u).axleOverflow = true
    let byPermit := fun e => ∃ q, HasPermit s u q ∧ q.classCode ≠ 0 ∧ FirstClass s (fun x => x.code = q.classCode) e
    let byPattern := fun e => (∀ e', ¬byPermit e') ∧ FirstClass s (fun x => x.pattern = pattern) e
    c.pattern = pattern ∧ (∀ d, d ∈ s.runOf u ↔ s.claimOf d = .slot u) ∧ (s.runOf u).Pairwise (· < ·) ∧
    (∀ e src, s.classOf u = some (e, src) ↔ src = .permit ∧ byPermit e ∨ src = .pattern ∧ byPattern e) ∧
    (∃ why : Option CheckReason,
      (s.runOf u = [] → c.gross = none ∧ why = some .unclaimed) ∧ (s.runOf u ≠ [] → LoadIs s (s.runOf u) c.gross why) ∧
      (s.classOf u = none → ∀ r, r ∈ c.reasons ↔ r = .noClass ∨ r = .overflow ∧ lost ∨ why = some r) ∧
      (s.classOf u ≠ none → ∀ r, r ∈ c.reasons ↔ (∃ g ∈ c.groups, g.reason = some r) ∨ why = some r)) ∧
    (s.classOf u = none →
      c.classCode = 0 ∧ c.source = .none ∧ c.hold = false ∧ c.grossVerdict = none ∧ c.grossLimit = none ∧
      c.grossCeiling = none ∧ c.groups = [] ∧ c.overall = .indeterminate) ∧
    ∀ e src, s.classOf u = some (e, src) →
      let gv := match c.gross with
        | some g => verdictUnder e.grossLimit e.tolerance g
        | none => .indeterminate
      let vs := gv :: c.groups.map (·.verdict)
      c.classCode = e.code ∧ c.source = src ∧ c.hold = e.hold ∧ c.grossLimit = some e.grossLimit ∧
      c.grossCeiling = some (e.grossLimit + e.grossLimit * e.tolerance / 1000) ∧ c.grossVerdict = some gv ∧
      c.groups.map (fun g => (g.type, g.limit)) = e.pattern.zip e.limits ∧
      (e.limits.length = e.pattern.length → c.groups.map (·.type) = e.pattern ∧ c.groups.map (·.limit) = e.limits) ∧
      (∀ g ∈ c.groups, (lost ∨ src = .permit ∧ e.pattern ≠ pattern) →
        g.axles = none ∧ g.decks = none ∧ g.load = none ∧ g.reason = some (if lost then .overflow else .pattern)) ∧
      (¬lost → e.pattern = pattern → ∀ (i : Nat) g axles, c.groups[i]? = some g → detected[i]? = some axles →
        GroupIs s u (((detected.take i).map (·.length)).sum + 1) axles g) ∧
      (∀ g ∈ c.groups, g.ceiling = g.limit + g.limit * e.tolerance / 1000 ∧
        (∀ x, g.load = some x → g.verdict = verdictUnder g.limit e.tolerance x) ∧
        (g.load = none → g.verdict = .indeterminate ∧ g.reason ≠ none)) ∧
      ((s.slot u).axleOverflow = true → c.overall = .indeterminate) ∧
      ((s.slot u).axleOverflow = false →
        (.over ∈ vs → c.overall = .over) ∧
        (.over ∉ vs → .indeterminate ∈ vs → c.overall = .indeterminate) ∧
        (.over ∉ vs → .indeterminate ∉ vs → .tolerated ∈ vs → c.overall = .tolerated) ∧
        (.over ∉ vs → .indeterminate ∉ vs → .tolerated ∉ vs → c.overall = .pass))

/-! ### Tickets -/

/-- FINALIZE and the PRINT key: where R105 lets the finalization through it is accepted, with the capture of R113, and
answered ACCEPTED with the slot and the kind, or not answered to a lane. RING_LOW is raised as the unreserved free count
falls to the threshold (R127). AUTO is resolved by the first of R106's cases that holds, and the slot's pending entry is a
usable one for its identity, where there is any (R119). -/
def Obligations.FinalizationsAccepted : Prop :=
  (∀ tag n kind s u asked k, s.canExecute { tag := tag, kind := 7#8, args := [n, kind] } = true → slotOf n = some u →
    kindOf kind = some asked → FinalizeReady s u asked k → Ends (exec (.finalize tag n kind) s) fun t =>
      Replied s t { tag := tag, kind := 7#8, args := [n, kind] } .accepted [slotCode u, kindCode k] ∧
      FinalizeTaken s t u k ∧ RingLowJudged s t) ∧
  (∀ l s u k, s.powered = true → s.fpt.inward.rx = [] → s.laneSlot l = some u → FinalizeReady s u none k →
    Ends (exec (.laneKeyPrint l) s) fun t =>
      t.gpt.responses = s.gpt.responses ∧ FinalizeTaken s t u k ∧ RingLowJudged s t) ∧
  (∀ (s : State) u,
    let tared := ∃ q x now, HasPermit s u q ∧ q.tare = some x ∧ s.gpt.time = some now ∧ TareWithin s now x.2
    ((∃ p, UsableFor s u p) → s.resolveAuto u = .tareOut) ∧
    ((∀ p, ¬UsableFor s u p) → tared → s.resolveAuto u = .storedNet) ∧
    ((∀ p, ¬UsableFor s u p) → ¬tared → (s.slot u).identity ≠ none → s.resolveAuto u = .grossIn) ∧
    ((∀ p, ¬UsableFor s u p) → ¬tared → (s.slot u).identity = none → s.resolveAuto u = .spot) ∧
    (∀ p, s.slotPending u = some p → UsableFor s u p) ∧
    (s.slotPending u = none ↔ ∀ p, ¬UsableFor s u p))

/-- FINALIZE refused: the lines of R105 in order, each judged only where those before it do not apply; a refusal that
carries HOLD_ON_OVER sets OVER_HELD (R111). A POSITIONED slot's check is computed as the request is taken and stays
CURRENT, whichever line refuses it (R102). A PRINT key refused is not answered, and does the same to the slot, OVER_HELD
among it (R104, R111). The
reasons that refuse are those of R107 to R111 that hold, each named once. That a slot number beyond 1 is judged before the
kind, and that the reasons stand in the answer in the order of the rules' tables, are the model's choices
(notes/assumptions/4, 26), and so is a division of 0 with no active set, and NO_TARE not standing beside NO_PERMIT for a slot with no permit
index (notes/assumptions/60, 62); that an unknown kind has no
check computed is its inference (notes/assumptions/61). -/
def Obligations.FinalizationsRefused : Prop :=
  (∀ tag n kind s, s.canExecute { tag := tag, kind := 7#8, args := [n, kind] } = true →
    let r : Request := { tag := tag, kind := 7#8, args := [n, kind] }
    let o := exec (.finalize tag n kind) s
    (1 < n.toNat → o = .next (s.popRequest.answer r .badIndex [])) ∧
    (n.toNat ≤ 1 → 5 < kind.toNat → o = .next (s.popRequest.answer r .badValue [])) ∧
    ∀ u asked, slotOf n = some u → kindOf kind = some asked →
      let stands := fun (t : State) => t.mst = s.mst ∧ t.tku = s.tku ∧ (t.slot u).state = .positioned ∧
        (t.slot u).check = .current (s.computeCheck u)
      let reply := fun st body =>
        ((s.slot u).state ≠ .positioned → o = .next (s.popRequest.answer r st body)) ∧
        ((s.slot u).state = .positioned → Ends o fun t =>
          Replied s t r st body ∧ stands t ∧ (t.slot u).overHeld = (s.slot u).overHeld)
      (s.cal.mode = .cal → reply .wrongMode []) ∧
      (s.cal.mode = .normal →
        (s.mst.storeFault = true → reply .storeFault []) ∧
        (s.mst.storeFault = false →
          (s.tku.serials = none → reply .serialLost []) ∧
          ∀ q, s.tku.serials = some q →
            (max32 ≤ q.issued → reply .range []) ∧
            (q.issued < max32 →
              ((s.slot u).state = .issuing ∨ s.jobQueued (.slot u) = true → reply .busy []) ∧
              ((s.slot u).state ≠ .issuing → s.jobQueued (.slot u) = false →
                ((s.slot u).state ≠ .positioned → reply .notReady (reasonSet [.slotState])) ∧
                ((s.slot u).state = .positioned →
                  let k := asked.getD ((s.refreshCheck u).resolveAuto u)
                  let rs := (s.refreshCheck u).finalizeReasons u k (s.computeCheck u)
                  (k ≠ .tareOut ∨ (s.slotPending u).isSome = true → rs ≠ [] → Ends o fun t =>
                    Replied s t r .notReady (reasonSet rs) ∧ stands t ∧
                    (t.slot u).overHeld = ((s.slot u).overHeld || rs.contains .holdOnOver)) ∧
                  (k = .tareOut → s.slotPending u = none → reply .notFound []))))))) ∧
  (∀ l s, s.powered = true → s.fpt.inward.rx = [] →
    (s.laneSlot l = none → exec (.laneKeyPrint l) s = .next s) ∧
    ∀ u, s.laneSlot l = some u →
      ((s.slot u).state ≠ .positioned → exec (.laneKeyPrint l) s = .next s) ∧
      ((s.slot u).state = .positioned → (∀ k, ¬FinalizeReady s u none k) → Ends (exec (.laneKeyPrint l) s) fun t =>
        let k := (s.refreshCheck u).resolveAuto u
        let rs := (s.refreshCheck u).finalizeReasons u k (s.computeCheck u)
        let earlier := s.cal.mode = .cal ∨ s.mst.storeFault = true ∨
          (∀ q, s.tku.serials = some q → max32 ≤ q.issued) ∨ s.jobQueued (.slot u) = true ∨
          k = .tareOut ∧ s.slotPending u = none
        t.gpt.responses = s.gpt.responses ∧ t.mst = s.mst ∧ t.tku = s.tku ∧ (t.slot u).state = .positioned ∧
        (t.slot u).check = .current (s.computeCheck u) ∧
        (earlier → (t.slot u).overHeld = (s.slot u).overHeld) ∧
        (¬earlier → (t.slot u).overHeld = ((s.slot u).overHeld || rs.contains .holdOnOver)))) ∧
  (∀ (s : State) u k c, ReasonsAre (s.finalizeReasons u k c) (FinalizeReason s u k c))

/-- ACK-TICKETS by the table of R125, where a SERIAL-RESTORE in the queue counts as an ACK job of its value (R165); and the end of an ACK job: the acknowledged serial is its value, no record up to it
is left in the ring, no reservation is freed, and a value held meanwhile becomes the next ACK job; a job that fails leaves
ring and serials alone and drops the held value (R126). -/
def Obligations.AcknowledgementsTaken : Prop :=
  (∀ tag serial s, s.canExecute { tag := tag, kind := 8#8, args := bytesOf 4 serial.toNat } = true →
     let r : Request := { tag := tag, kind := 8#8, args := bytesOf 4 serial.toNat }
     let v := serial.toNat
     let o := exec (.ackTickets tag serial) s
     let covered := (∃ w, (.ack w ∈ s.mst.jobs ∨ .restore w ∈ s.mst.jobs) ∧ v ≤ w) ∨ ∃ w, s.tku.heldAck = some w ∧ v ≤ w
     let queued := ∃ w, .ack w ∈ s.mst.jobs
     let writing := s.mst.running ≠ none ∧ ∃ w js, s.mst.jobs = .ack w :: js
     (s.tku.serials = none → o = .next (s.popRequest.answer r .range [])) ∧
     ∀ n, s.tku.serials = some n →
       (n.issued < v → o = .next (s.popRequest.answer r .range [])) ∧
       (v ≤ n.issued → v ≤ n.acked ∨ covered → o = .next (s.popRequest.answer r .ok [])) ∧
       (v ≤ n.issued → n.acked < v → ¬covered →
         (s.mst.storeFault = true → o = .next (s.popRequest.answer r .storeFault [])) ∧
         (s.mst.storeFault = false → Ends o fun t =>
           Replied s t r .accepted [] ∧ t.tku.serials = s.tku.serials ∧ t.tku.ring = s.tku.ring ∧
           (writing → t.tku = { s.tku with heldAck := some v } ∧ t.tku.heldAck = some v ∧ t.mst = s.mst) ∧
           (¬writing → queued → t.tku = s.tku ∧ t.mst.jobs = s.mst.jobs.map fun j => match j with
             | .ack _ => .ack v
             | j => j) ∧
           (¬writing → ¬queued → t.tku = s.tku ∧ t.mst.jobs = s.mst.jobs ++ [.ack v])))) ∧
  (∀ s r v js w n, s.powered = true → s.mst.running = some r → s.mst.jobs = .ack v :: js → r.writes = [w] →
     s.tku.serials = some n → Ends (exec (.recordWriteDone .equal) s) fun t =>
       t.tku.serials = some { issued := n.issued, acked := v } ∧ t.tku.heldAck = none ∧
       (∀ x ∈ t.tku.ring, v < lastSerial x.record) ∧
       (∀ x ∈ s.tku.ring, v < lastSerial x.record → (∀ a b, x.record = .void a b → v < a) → x ∈ t.tku.ring) ∧
       (∀ a b m, { record := .void a b, sent := m } ∈ s.tku.ring → a ≤ v → v < b →
         { record := .void (v + 1) b, sent := m } ∈ t.tku.ring) ∧
       t.mst.jobs = js ++ (s.tku.heldAck.map Job.ack).toList ∧ t.reservations = s.reservations) ∧
  (∀ s r v js w ws left, s.powered = true → s.mst.running = some r → s.mst.jobs = .ack v :: js → r.writes = w :: ws →
     r.again = true → Ends (exec (.recordWriteDone (.differs left)) s) fun t =>
       t.tku.serials = s.tku.serials ∧ t.tku.ring = s.tku.ring ∧ t.tku.heldAck = none ∧ t.mst.storeFault = true)

/-- RESEND-TICKETS (v): every record that reaches v or beyond is unsent again, and counted (R124). -/
def Obligations.TicketsResent : Prop :=
  ∀ tag serial s, s.canExecute { tag := tag, kind := 9#8, args := bytesOf 4 serial.toNat } = true →
    let v := serial.toNat
    Ends (exec (.resendTickets tag serial) s) fun t =>
      Replied s t { tag := tag, kind := 9#8, args := bytesOf 4 serial.toNat } .ok
        (bytesOf 4 (s.tku.ring.filter fun x => decide (v ≤ lastSerial x.record)).length
          ++ opt32 (s.tku.serials.map (·.acked)) ++ opt32 (s.tku.serials.map (·.issued))) ∧
      t.tku = { s.tku with ring := s.tku.ring.map fun x => if v ≤ lastSerial x.record then { x with sent := false } else x } ∧
      t.mst = s.mst

/-- The two sweeps. The ticket unit's hands in one HOUSEKEEPING job for every entry past the expiry that is not in flight
nor of an attached identity, unless the store is not free for it; at the job's end those entries are gone, each with its
PENDING_EXPIRED notice (R120). The audit unit's notices each lapsed deck whose lapse mark is clear, and no other (R183). -/
def Obligations.SweepsRun : Prop :=
  ((∀ s now, s.powered = true → s.tku.sweep ≠ none → s.gpt.time = some now →
     let old := s.tku.pending.filter fun p =>
       decide ((s.setting 19).toNat * 3600 < now - p.inbound.time) && !s.inFlight p &&
         s.slc.slot0.identity != some p.inbound.identity && s.slc.slot1.identity != some p.inbound.identity
     let free := s.jobQueued .housekeeping = false ∧ (∀ v, .restore v ∉ s.mst.jobs) ∧ s.mst.storeFault = false
     Ends (exec .pendingSweep s) fun t =>
       t.tku = { s.tku with sweep := some 60000 } ∧
       (free → old ≠ [] → t.mst.jobs = s.mst.jobs ++ [.housekeeping (old.map (·.recNo))]) ∧
       (¬free ∨ old = [] → t.mst = s.mst)) ∧
   (∀ s r ns js w, s.powered = true → s.mst.running = some r → s.mst.jobs = .housekeeping ns :: js → r.writes = [w] →
     Ends (exec (.recordWriteDone .equal) s) fun t =>
       t.mst.store = s.mst.store.lay .new w ∧ t.mst.jobs = js ∧
       t.tku = { s.tku with pending := s.tku.pending.filter fun p => decide (p.recNo ∉ ns) } ∧
       (∀ p ∈ s.tku.pending, p.recNo ∈ ns → Noticed s t (.pendingExpired p.inbound)))) ∧
  (∀ s now, s.powered = true → s.aud.sweep ≠ none → s.gpt.time = some now →
    s.aud.lapsed.length = s.aud.standings.length → Ends (exec .verificationLapsed s) fun t =>
      t.aud.standings = s.aud.standings ∧ t.aud.sweep = some 60000 ∧
      ∀ (d : Nat) (v : Standing) (m : Bool), s.aud.standings[d]? = some v → s.aud.lapsed[d]? = some m →
        t.aud.lapsed[d]? = some (m || v.lapsedAt now) ∧
        (∀ e, v = .verified e → e ≤ now → m = false → Noticed s t (.verificationLapsed d e)) ∧
        (m = true ∨ (∀ e, v = .verified e → now < e) → ∀ x ∈ t.gpt.notices, ∀ e, x.notice = .verificationLapsed d e →
          x ∈ s.gpt.notices))

/-! ### The store -/

/-- The end of a ticket job: its serial is issued, its WEIGH record enters the ring unsent, and a slot still ISSUING is
LEAVING, or FREE when its axles have gone; a slot that a link reset freed since is left as it stands, whatever it has
become, and so is the other slot (R70, R114, R115, R117). -/
def Obligations.TicketsIssued : Prop :=
  ∀ s r c js w n, s.powered = true → s.mst.running = some r → s.mst.jobs = .ticket c :: js → r.writes = [w] →
    s.tku.serials = some n → Ends (exec (.recordWriteDone .equal) s) fun t =>
      let kept := fun u => (t.slot u).state = (s.slot u).state ∧ (t.slot u).identity = (s.slot u).identity ∧
        (c.kind ≠ .tareRefresh → (t.slot u).held = (s.slot u).held)
      t.mst.store = s.mst.store.lay .new w ∧ t.mst.jobs = js ∧
      t.tku.serials = some { issued := r.serial, acked := n.acked } ∧
      t.tku.ring = s.tku.ring ++ [{ record := .weigh { serial := r.serial, time := r.time.getD 0, counter := r.counter,
                                                       code := r.code, capture := c }, sent := false }] ∧
      ((s.slot c.slot).state = .issuing → s.hasAxles c.slot = true → (t.slot c.slot).state = .leaving) ∧
      ((s.slot c.slot).state = .issuing → s.hasAxles c.slot = false → (t.slot c.slot).held = freeSlot.held) ∧
      ((s.slot c.slot).state ≠ .issuing → kept c.slot) ∧ kept (otherSlot c.slot) ∧ t.slc.claims = s.slc.claims ∧
      (∀ k, c.kind = .grossIn → r.recNo = some k → t.tku.pending = s.tku.pending ++
        [{ inbound := { identity := c.identity.getD 0, serial := r.serial, gross := c.gross, time := r.time.getD 0,
                        classCode := c.check.classCode }, recNo := k }]) ∧
      (c.kind = .tareOut → t.tku.pending = s.tku.pending.filter fun p => c.pendingRec != some p.recNo) ∧
      (∀ i who p, c.kind = .tareRefresh → c.permit = some i → c.identity = some who →
        s.slc.permits[i]? = some p → p.valid = true → p.identity = who →
        t.slc.permits[i]? = some { p with tare := some (c.gross.toNat, r.time.getD 0) })

/-- The ends of the CAL jobs. COMMIT: the working set is the active set, the counter rises and its entry joins the log; a
cell whose node the old table holds takes over its volatile part and reply entry, its window emptied on a changed deck,
and any other starts as at power-up (R9); changed decks lose their zero and their standing and take the fault of R25, or
keep CELL, the others keep theirs; where the deck count changes, strays, last-crossing records and claims go, else tracker
and claims stand; and the commit mark clears (R42, R64, R65, R160). LOG-ERASE and SERIAL-RESTORE: the counter rises; the
log is left with the ERASE entry alone, or gains its entry; a restore sets both serials, leaves no record in the ring but a
VOID record beyond them, drops the entries whose record is EMPTY, with a notice each in table order, and under SERIAL_LOST
adds those its writes restored, in first-pass serial order (R164, R166). -/
def Obligations.CalibrationJobsComplete : Prop :=
  (∀ s r e js w, s.powered = true → s.mst.running = some r → s.mst.jobs = .commit :: js → r.writes = [w] →
     r.entry = some e → Ends (exec (.recordWriteDone .equal) s) fun t =>
       let changed := changedDecks s.cal.working s.cal.active
       t.cal.active = some s.cal.working ∧ t.cal.working = s.cal.working ∧ t.cal.counter = e.counter ∧
       t.cal.log = s.cal.log ++ [{ entry := e, read := false }] ∧ t.mst.newestSlot = some r.logSlot ∧
       t.slc.commitMark = false ∧ t.cells.map (·.const) = s.cal.working.cellList ∧
       t.decks.length = s.cal.working.n ∧ t.aud.standings.length = s.cal.working.n ∧
       Noticed s t (.commitDone e.counter r.code changed) ∧
       (∀ c ∈ t.cells, let old := s.cells.find? fun k => k.const.node == c.const.node
         (old = none → c = freshCell c.const) ∧
         ∀ c0, old = some c0 → c = { c0 with const := c.const,
                                             window := if c.const.deck ∈ changed then [] else c0.window }) ∧
       (s.decks.length = s.cal.working.n → t.axt = s.axt ∧ t.slc.claims = s.slc.claims) ∧
       (s.decks.length ≠ s.cal.working.n →
         t.axt = { s.axt with line := t.axt.line, last := t.axt.last } ∧
         t.axt.line = s.axt.line.filter (fun x => x.owner.slot?.isSome) ∧
         (∀ (b : Nat) q, t.axt.last[b]? = some q → q = none) ∧
         t.slc.claims = List.replicate s.cal.working.n .none) ∧
       ∀ (d : Nat) (k : Deck), t.decks[d]? = some k →
         (d ∈ changed → (k.fault = some .uncalibrated ↔ ∀ c ∈ t.cells, c.const.deck ≠ d) ∧
           (k.fault = some .cell ↔ (∃ c ∈ t.cells, c.const.deck = d) ∧
             ∃ k0, s.decks[d]? = some k0 ∧ k0.fault = some .cell) ∧ k.zero = none ∧ k.zeroStatus = .stale ∧ k.interval = none ∧ k.filter = [] ∧ k.w = none ∧
           k.scanLost = true ∧ k.reportMark = true ∧ t.aud.standings[d]? = some .unverified) ∧
         (d ∉ changed → t.aud.standings[d]? = some (s.standingOf d) ∧
           ∀ k0, s.decks[d]? = some k0 → k.measured = k0.measured)) ∧
  ((∀ s r e js w, s.powered = true → s.mst.running = some r → s.mst.jobs = .logErase :: js → r.writes = [w] →
     r.entry = some e → Ends (exec (.recordWriteDone .equal) s) fun t =>
       t.cal = { s.cal with counter := e.counter, log := [{ entry := e, read := false }] } ∧ t.tku = s.tku ∧
       Noticed s t (.eraseDone e.counter)) ∧
   (∀ s r e v js w, s.powered = true → s.mst.running = some r → s.mst.jobs = .restore v :: js → r.writes = [w] →
     r.entry = some e → Ends (exec (.recordWriteDone .equal) s) fun t =>
       t.cal = { s.cal with counter := e.counter, log := s.cal.log ++ [{ entry := e, read := false }] } ∧
       t.tku.serials = some { issued := v, acked := v } ∧
       (∀ x, x ∈ t.tku.ring ↔ x ∈ s.tku.ring ∧ ∃ a b, x.record = .void a b ∧ v < b) ∧
       Noticed s t (.restoreDone e.counter v) ∧
       let holds := fun (n : Nat) (c : PendingRec) =>
         t.mst.store.pending[n]?.any fun x => recPasses pendingBytes x && decide (x.contents = c)
       let dropped := s.tku.pending.filter fun p => holds p.recNo .empty
       t.mst.store = s.mst.store.lay .new w ∧
       (∀ p, p ∈ t.tku.pending ↔ p ∈ s.tku.pending ∧ p ∉ dropped ∨
         s.tku.serials = none ∧ (∀ q ∈ s.tku.pending, q.recNo ≠ p.recNo) ∧ holds p.recNo (.entry p.inbound) = true) ∧
       (s.tku.pending.Pairwise (fun p q => p.inbound.serial ≤ q.inbound.serial) →
         t.tku.pending.Pairwise fun p q => p.inbound.serial ≤ q.inbound.serial) ∧
       (s.gpt.notices ++ dropped.map fun p => Stamped.mk s.gpt.time
         (.pendingDropped p.recNo (some p.inbound.identity) (some p.inbound.serial))).take 8 <+: t.gpt.notices))

/-- A second read-back that differs fails the front job and every job behind it: STORE_FAULT is entered with its notice,
which carries the originator, the record's kind and, where its kind has several, its number, and how many records the job
had written; the queue is empty, and no job's completion takes effect (R116, R126, R137, R138, R161, R180). -/
def Obligations.JobsFail : Prop :=
  ∀ s r j js w ws left, s.powered = true → s.mst.running = some r → s.mst.jobs = j :: js → r.writes = w :: ws →
    r.again = true → Ends (exec (.recordWriteDone (.differs left)) s) fun t =>
      let place : RecKind × Option Nat := match w with
        | .set _ => (.set, none)
        | .counter _ => (.counter, none)
        | .log n _ => (.log, some n)
        | .verif n _ => (.verification, some n)
        | .serial _ => (.serial, none)
        | .ack _ => (.acknowledged, none)
        | .pending n _ => (.pending, some n)
      t.mst.storeFault = true ∧ t.mst.jobs = [] ∧ t.mst.running = none ∧ t.mst.store = s.mst.store.lay left w ∧
      t.tku.serials = s.tku.serials ∧ t.tku.ring = s.tku.ring ∧ t.tku.pending = s.tku.pending ∧ t.cal = s.cal ∧
      t.aud.standings = s.aud.standings ∧ t.aud.points = s.aud.points ∧ t.reservations = 0 ∧
      (.commit ∈ j :: js → t.slc.commitMark = false) ∧
      (s.aud.run = .closing → (∃ c, .close c ∈ j :: js) → t.aud.run = .opened) ∧
      ((∃ v, .ack v ∈ j :: js) → t.tku.heldAck = none) ∧
      (∀ u, (s.slot u).state = .issuing → (∃ c, .ticket c ∈ j :: js ∧ c.slot = u) →
        (t.slot u).state =
          (if s.hasAxles u = false then .free else if (s.slot u).quiet = true then .positioned else .moving)) ∧
      Noticed s t (.storeFault j.origin place.1 place.2 r.written)

/-! ### Bounds of the queues, the ring and the counter -/

/-- The gatehouse port's queues keep within their places (R186, R192, R193), and the store job queue holds at most one job
of each originator (R133), at the end of every step. -/
def Obligations.QueuesStayBounded : Prop :=
  (∀ s t, s.QueuesBounded → step s = .next t → t.QueuesBounded) ∧
  (∀ s t, s.OneJobEach → step s = .next t → t.OneJobEach)

/-- Records held plus reservations never exceed 64 (R122). -/
def Obligations.RingStaysBounded : Prop :=
  ∀ s t, s.RingBounded → step s = .next t → t.RingBounded

/-- The calibration event counter: no command but those of the supply lowers it, and the end of a commit, erase or
restore job raises it by one (R162). -/
def Obligations.CounterRises : Prop :=
  (∀ s t, s.EntryNext → step s = .next t → t.EntryNext) ∧
  (∀ c s t, c.isSupply = false → s.EntryNext → exec c s = .next t → s.cal.counter ≤ t.cal.counter) ∧
  (∀ s r e j js w, s.powered = true → s.EntryNext → s.mst.running = some r → s.mst.jobs = j :: js → r.writes = [w] →
    r.entry = some e → j.origin = .cal → Ends (exec (.recordWriteDone .equal) s) fun t =>
      t.cal.counter = s.cal.counter + 1)

/-! ### Audits -/

/-- AUDIT-OPEN, by the lines of R169: answered BAD_INDEX, BAD_VALUE or BUSY; refused, with each failing deck and the first
of R66's conditions it failed; or the run opens with the
listed decks, lowest first, and each takes the claimant AUDIT (R66, R178). The order within
line 1 and the layout of the failing decks are the model's choice (notes/assumptions/4, 17). AUDIT-CANCEL by the table of
R181. -/
def Obligations.AuditRunsOpenedAndCancelled : Prop :=
  (∀ tag (decks : List Byte) s,
     let r : Request := { tag := tag, kind := 11#8, args := BitVec.ofNat 8 decks.length :: decks }
     let o := exec (.auditOpen tag decks) s
     let ds := decks.map (·.toNat)
     let absent := s.cal.active = none ∨ ∃ d ∈ ds, s.decks.length ≤ d
     let misformed := ds = [] ∨ 6 < ds.length ∨ ¬ds.Nodup
     let failing : Nat → Option Reason := fun d =>
       if s.claimOf d ≠ .none then some .claimed
       else if s.axleCount d ≠ 0 then some .axles
       else if s.strayCount d ≠ 0 then some .strays
       else if (s.decks[d]?.map (·.untracked)) = some true then some .untracked
       else if s.slc.commitMark = true then some .commit
       else none
     let fails := ds.filterMap fun d => (failing d).map fun x => (d, x)
     s.canExecute r = true →
     (absent → o = .next (s.popRequest.answer r .badIndex [])) ∧
     (¬absent → misformed → o = .next (s.popRequest.answer r .badValue [])) ∧
     (¬absent → ¬misformed → s.aud.run ≠ .closed → o = .next (s.popRequest.answer r .busy [])) ∧
     (¬absent → ¬misformed → s.aud.run = .closed →
       (fails ≠ [] → o = .next (s.popRequest.answer r .notReady
         (BitVec.ofNat 8 fails.length :: fails.flatMap fun f => bytesOf 1 f.1 ++ nameBytes f.2.name))) ∧
       (fails = [] → Ends o fun t =>
         Replied s t r .ok [] ∧ t.aud.run = .opened ∧ (∀ d, d ∈ t.aud.decks ↔ d ∈ ds) ∧ t.aud.decks.Pairwise (· < ·) ∧
         t.aud.traffic = t.aud.decks.map (fun _ => 0) ∧ t.aud.points = [] ∧ t.aud.timer = none ∧
         t.aud.standings = s.aud.standings ∧
         ∀ d, d < s.slc.claims.length → t.claimOf d = if d ∈ ds then .audit else s.claimOf d))) ∧
  (∀ tag s, s.canExecute { tag := tag, kind := 14#8, args := [] } = true →
     let r : Request := { tag := tag, kind := 14#8, args := [] }
     let o := exec (.auditCancel tag) s
     (s.aud.run = .closed → o = .next (s.popRequest.answer r .notReady (reasonSet [.noRun]))) ∧
     (s.aud.run = .closing → o = .next (s.popRequest.answer r .busy [])) ∧
     (s.aud.run = .opened ∨ s.aud.run = .waiting → Ends o fun t =>
       Replied s t r .ok [] ∧ t.aud.run = .closed ∧ t.aud.points = [] ∧ t.aud.traffic = [] ∧ t.aud.timer = none ∧
       t.aud.standings = s.aud.standings ∧ (∀ d, t.claimOf d ≠ .audit) ∧ t.tku = s.tku ∧ t.mst = s.mst ∧ t.LanesTold))

/-- AUDIT-POINT, by the lines of R171: refused, or the point joins the list and waits, and the point timer starts. A deck
sum of its deck captures it where the deck is STABLE, has a gross and carries neither axle nor stray, the indication the
gross rounded to a tenth of a division, and the run is OPEN again; any other deck sum, and a reply that completes no scan
of its deck, leaves the run as it was (R172, R174). Its timer's expiry makes it UNSTABLE and the run OPEN (R173). The size
of the index in the answer, and that indication and error are not saturated, are the model's choices (notes/assumptions/18,
42). -/
def Obligations.AuditPointsTaken : Prop :=
  (∀ tag d (m : BitVec 32) pos s,
     let r : Request := { tag := tag, kind := 12#8, args := d :: (bytesOf 4 m.toNat ++ [pos]) }
     let o := exec (.auditPoint tag d m pos) s
     let refused := fun st body => o = .next (s.popRequest.answer r st body)
     let outside := m.toInt < 0 ∨ s.deckMax d.toNat < m.toInt ∨ (s.cellsOf d.toNat).length < pos.toNat
     s.canExecute r = true →
     (s.aud.run = .closed → refused .notReady (reasonSet [.noRun])) ∧
     (s.aud.run = .waiting ∨ s.aud.run = .closing → refused .busy []) ∧
     (s.aud.run = .opened →
       (d.toNat ∉ s.aud.decks → refused .badIndex []) ∧
       (d.toNat ∈ s.aud.decks → outside → refused .badValue []) ∧
       (d.toNat ∈ s.aud.decks → ¬outside → 16 ≤ s.aud.points.length → refused .full []) ∧
       (d.toNat ∈ s.aud.decks → ¬outside → s.aud.points.length < 16 → Ends o fun t =>
         Replied s t r .ok (bytesOf 1 s.aud.points.length) ∧
         t.aud = { s.aud with
           run := .waiting
           timer := some ((s.setting 22).toNat * 1000)
           points := s.aud.points ++ [{ deck := d.toNat, nominal := m.toInt, position := pos.toNat, state := .waiting,
                                        indication := none, gross := none, error := none, mpe := none,
                                        verdict := none }] }))) ∧
  ((∀ node scan raw temperature excitation s i c k, ReplyAccepted s node scan i c →
      -400 ≤ temperature.toInt → temperature.toInt ≤ 850 → excitation.toNat ≤ 12000 → (c.fault = none ∨ 2 ≤ c.clearing) →
      let d := c.const.deck
      let e := s.division
      s.decks[d]? = some k → k.scanLost = false →
      (∀ j x, s.cells[j]? = some x → j ≠ i → x.const.deck = d → x.entry = .ok) →
      s.aud.run = .waiting → (∃ p ∈ s.aud.points, p.state = .waiting) →
      (∀ p ∈ s.aud.points, p.state = .waiting → p.deck = d) →
      Ends (exec (.cellFrame node scan raw temperature excitation 0#8) s) fun t =>
        ∃ k' : Deck, t.decks[d]? = some k' ∧
          (k'.motion ≠ .stable ∨ s.axleCount d ≠ 0 ∨ s.strayCount d ≠ 0 ∨ k'.gross = none → t.aud = s.aud) ∧
          (∀ g, k'.motion = .stable → s.axleCount d = 0 → s.strayCount d = 0 → k'.gross = some g →
            t.aud = { s.aud with
              run := .opened
              timer := none
              points := s.aud.points.map fun p =>
                let indication := roundDiv g (e / 10) * (e / 10)
                let error := indication - p.nominal
                if p.state = .waiting then
                  { p with state := .captured, indication := some indication, gross := some g, error := some error,
                           mpe := some (mpeOf e p.nominal),
                           verdict := some (if |error| ≤ mpeOf e p.nominal then .pass else .fail) }
                else p })) ∧
   (∀ node scan raw temperature excitation status s i c, ReplyAccepted s node scan i c →
      ¬CompletesScan s i c.const.deck ∨ (∀ p ∈ s.aud.points, p.state = .waiting → p.deck ≠ c.const.deck) →
      Ends (exec (.cellFrame node scan raw temperature excitation status) s) fun t => t.aud = s.aud)) ∧
  (∀ s, s.powered = true → s.aud.timer ≠ none → Ends (exec .pointTimerExpiry s) fun t =>
     t.aud.timer = none ∧ (s.aud.run = .waiting → t.aud.run = .opened) ∧
     (s.aud.run ≠ .waiting → t.aud.run = s.aud.run) ∧ t.aud.points.length = s.aud.points.length ∧
     ∀ (i : Nat) (p : Point), s.aud.points[i]? = some p → t.aud.points[i]? = some
       (if p.state = .waiting
         then { p with state := .unstable, mpe := some (mpeOf s.division p.nominal), verdict := some .unstable }
         else p))

/-- The permissible error of a nominal, and the verdict of a captured and of an UNSTABLE point (R174). The eccentricity
of a deck's points: FAIL when two captured points of cell positions at one nominal stand further apart than that nominal's
permissible error, PASS when some nominal has two and none fails, else NONE, which fails no deck (R175). -/
def Obligations.AuditArithmetic : Prop :=
  ((∀ e m : Int, 0 ≤ m → 0 < e →
     (m ≤ 500 * e → mpeOf e m = e / 2) ∧ (500 * e < m → m ≤ 2000 * e → mpeOf e m = e) ∧
     (2000 * e < m → mpeOf e m = 3 * e / 2)) ∧
   (∀ (e g : Int) (p : Point), ∃ x, (p.capture e g).error = some x ∧ (p.capture e g).state = .captured ∧
     (p.capture e g).indication = some (x + p.nominal) ∧ (p.capture e g).mpe = some (mpeOf e p.nominal) ∧
     (|x| ≤ mpeOf e p.nominal → (p.capture e g).verdict = some .pass) ∧
     (mpeOf e p.nominal < |x| → (p.capture e g).verdict = some .fail)) ∧
   (∀ (e : Int) (p : Point), p.state = .waiting → (p.expire e).verdict = some .unstable) ∧
   (∀ (e : Int) (ps : List Point), (∃ p ∈ ps, p.verdict = some .unstable) → .point ∈ auditReasons e ps)) ∧
  (∀ (e : Int) (ps : List Point),
     let inds := fun m => (ps.filter fun p =>
       decide (p.state = .captured) && decide (p.position ≠ 0) && decide (p.nominal = m)).filterMap (·.indication)
     (eccentricity e ps = .fail ↔ ∃ m, 2 ≤ (inds m).length ∧ ∃ x ∈ inds m, ∃ y ∈ inds m, mpeOf e m < x - y) ∧
     (eccentricity e ps = .pass ↔ (∃ m, 2 ≤ (inds m).length) ∧
       ∀ m, 2 ≤ (inds m).length → ∀ x ∈ inds m, ∀ y ∈ inds m, x - y ≤ mpeOf e m) ∧
     (eccentricity e ps = .none ↔ ∀ m, (inds m).length < 2) ∧
     (.eccentricity ∈ auditReasons e ps ↔ eccentricity e ps = .fail))

/-- AUDIT-CLOSE, by the lines of R176: refused, where on several reasons with each of them in the order of R176's
table, which is the model's choice (notes/assumptions/26); or accepted: the run is CLOSING, the close job with its capture joins the
rear of the store job queue (R177, R178), and RING_LOW is judged (R127). At the job's end its AUDIT record enters the ring,
each deck with points takes its standing, and a run still CLOSING ends with its decks released (R66, R168, R179). -/
def Obligations.AuditsClosed : Prop :=
  (∀ tag s,
     let r : Request := { tag := tag, kind := 13#8, args := [] }
     let o := exec (.auditClose tag) s
     let refused := fun st body => o = .next (s.popRequest.answer r st body)
     let reasons := reasonsWhere [(.noPoints, decide (s.aud.points = [])), (.timeUnset, decide (s.gpt.time = none)),
       (.ringFull, decide (s.ringFree = 0))]
     s.canExecute r = true →
     (s.aud.run = .closed → refused .notReady (reasonSet [.noRun])) ∧
     (s.aud.run = .waiting ∨ s.aud.run = .closing → refused .busy []) ∧
     (s.aud.run = .opened →
       (s.mst.storeFault = true → refused .storeFault []) ∧
       (s.mst.storeFault = false → s.tku.serials = none → refused .serialLost []) ∧
       ∀ n, s.mst.storeFault = false → s.tku.serials = some n →
         (max32 ≤ n.issued → refused .range []) ∧
         (n.issued < max32 → s.jobQueued .aud = true → refused .busy []) ∧
         (n.issued < max32 → s.jobQueued .aud = false → reasons ≠ [] → refused .notReady (reasonSet reasons)) ∧
         (n.issued < max32 → s.jobQueued .aud = false → reasons = [] → Ends o fun t =>
           Replied s t r .accepted [] ∧ t.aud = { s.aud with run := .closing } ∧
           t.reservations = s.reservations + 1 ∧ RingLowJudged s t ∧
           ∃ c : CloseCapture, t.mst.jobs = s.mst.jobs ++ [.close c] ∧ c.mode = s.cal.mode ∧ c.points = s.aud.points ∧
             c.decks.map (fun x => (x.deck, x.traffic)) = s.aud.decks.zip s.aud.traffic ∧
             ∀ x ∈ c.decks,
               let ps := s.aud.points.filter (·.deck == x.deck)
               x.ecc = eccentricity s.division ps ∧
               (ps = [] → x.verdict = .none ∧ x.reasons = []) ∧
               (ps ≠ [] → (x.verdict = .pass ↔ x.reasons = []) ∧ (x.verdict = .fail ↔ x.reasons ≠ []) ∧
                 (.point ∈ x.reasons ↔ ∃ p ∈ ps, p.verdict ≠ some .pass) ∧
                 (.noZeroPoint ∈ x.reasons ↔ ∀ p ∈ ps, p.nominal ≠ 0) ∧
                 (.tooFew ∈ x.reasons ↔ (ps.filter fun p => decide (0 < p.nominal)).length < 2) ∧
                 (.eccentricity ∈ x.reasons ↔ eccentricity s.division ps = .fail))))) ∧
  (∀ s r c js w n, s.powered = true → s.mst.running = some r → s.mst.jobs = .close c :: js → r.writes = [w] →
     s.tku.serials = some n → Ends (exec (.recordWriteDone .equal) s) fun t =>
       t.tku.serials = some { issued := r.serial, acked := n.acked } ∧
       t.tku.ring = s.tku.ring ++ [{ record := .audit { serial := r.serial, time := r.time.getD 0, counter := r.counter,
                                                        code := r.code, expiry := r.expiry, capture := c }, sent := false }] ∧
       ((c.decks.map (·.deck)).Nodup → ∀ x ∈ c.decks, x.deck < s.aud.standings.length →
         (x.verdict = .pass → t.aud.standings[x.deck]? = some (.verified r.expiry)) ∧
         (x.verdict = .fail → t.aud.standings[x.deck]? = some .failed) ∧
         (x.verdict = .none → t.aud.standings[x.deck]? = s.aud.standings[x.deck]?)) ∧
       (s.aud.run = .closing → t.aud.run = .closed ∧ t.aud.points = [] ∧ ∀ d, t.claimOf d ≠ .audit) ∧
       (s.aud.run ≠ .closing → t.aud.run = s.aud.run ∧ t.aud.points = s.aud.points ∧ t.slc.claims = s.slc.claims))

/-! ### Calibration -/

/-- WRITE-ENTRY (METRO), by the lines of R151 in their order: refused, or a bridge entry, a deck's Max, a cell position or
an emptied position, each within its ranges, written into the working set and answered as it then stands (R149).
ZERO-CELLS and SPAN-FROM-POINT, by the lines of R154 in their order: refused, where on several reasons of R154 to R156 with
each of them, or the zero count or the span of every cell of the deck is set in the working set, and every other cell and
field of it left alone. Every step keeps the sets within R149's counts, on which the reasons are judged. The order of the
reasons in an answer, the order and sizes of the adjusted cells in it and their count byte, and the order of R154 during a
COMMIT are the model's choices (notes/assumptions/18, 26, 45, 55, 63). -/
def Obligations.WorkingSetEdited : Prop :=
  (∀ tag (index : BitVec 16) contents s,
     let r := writeRequest tag 3#8 index contents
     let i := index.toNat
     let m := s.cal.working
     let o := exec (.writeEntryMetro tag index contents) s
     let refused := fun st => o = .next (s.popRequest.answer r st [])
     let writes := fun m' => o =
       .next ({ s.popRequest with cal := { s.cal with working := m' } }.answer r .ok (m'.entryBytes i))
     let formed := i = 0 ∧ contents.length = 12 ∨ 1 ≤ i ∧ i ≤ 6 ∧ contents.length = 4 ∨
       7 ≤ i ∧ i ≤ 38 ∧ (contents.head? = some 0#8 ∨ contents.length = 15 + 8 * (contents.getD 14 0#8).toNat)
     let taken := fun (c : CellConst) =>
       ∃ (j : Nat) (x : CellConst), j ≠ i - 7 ∧ m.cells[j]? = some (some x) ∧ x.node = c.node
     s.canExecute r = true →
     (38 < i → refused .badIndex) ∧
     (formed → s.cal.mode = .normal → refused .wrongMode) ∧
     (formed → s.cal.mode = .cal → s.commitQueued = true → refused .busy) ∧
     (s.cal.mode = .cal → s.commitQueued = false →
       (formed → m.n < i → i ≤ 6 → refused .badIndex) ∧
       (∀ n e days, i = 0 → contents = bytesOf 4 n ++ bytesOf 4 e ++ bytesOf 4 days → n < 4294967296 → e < 4294967296 →
         days < 4294967296 →
         let allowed := 1 ≤ n ∧ n ≤ 6 ∧ e ∈ [1000, 2000, 5000, 10000, 20000, 50000] ∧ 1 ≤ days ∧ days ≤ 730
         let maxes := resizeMaxes n m.maxes
         (¬allowed → refused .badValue) ∧
         (allowed → writes { m with n := n, e := e, interval := days, maxes := maxes } ∧ maxes.length = n ∧
           (∀ d, d < n → d < m.maxes.length → maxes[d]? = m.maxes[d]?) ∧
           ∀ d v, d < n → m.maxes.length ≤ d → m.maxes.getLast? = some v → maxes[d]? = some v)) ∧
       (∀ v, 1 ≤ i → i ≤ 6 → i ≤ m.n → contents = bytesOf 4 v → v < 4294967296 →
         (v < 1000000 ∨ 100000000 < v → refused .badValue) ∧
         (1000000 ≤ v → v ≤ 100000000 → writes { m with maxes := m.maxes.set (i - 1) v })) ∧
       (∀ rest, 7 ≤ i → i ≤ 38 → contents = 0#8 :: rest →
         writes { m with cells := m.cells.setIfInBounds (i - 7) none }) ∧
       (∀ c : CellConst, 7 ≤ i → i ≤ 38 → contents = cellEntryBytes (some c) → CellSpelled c →
         (¬CellWithin c → refused .badValue) ∧
         (CellWithin c → taken c → refused .duplicate) ∧
         (CellWithin c → ¬taken c → writes { m with cells := m.cells.setIfInBounds (i - 7) (some c) })))) ∧
  ((∀ tag d s,
     let r : Request := { tag := tag, kind := 15#8, args := [d] }
     let o := exec (.zeroCells tag d) s
     let reasons := reasonsWhere (s.runReasons d.toNat ++ s.zeroReasons d.toNat)
     s.canExecute r = true →
     ((∀ a, s.cal.active = some a → a.n ≤ d.toNat) → o = .next (s.popRequest.answer r .badIndex [])) ∧
     (s.SetsSound → ReasonsAre reasons (ZeroCellsReason s d.toNat)) ∧
     ∀ a, s.cal.active = some a → d.toNat < a.n →
       (s.cal.mode = .normal → o = .next (s.popRequest.answer r .wrongMode [])) ∧
       (s.cal.mode = .cal → s.commitQueued = true → o = .next (s.popRequest.answer r .busy [])) ∧
       (s.cal.mode = .cal → s.commitQueued = false → reasons ≠ [] →
         o = .next (s.popRequest.answer r .notReady (reasonSet reasons))) ∧
       (s.cal.mode = .cal → s.commitQueued = false → reasons = [] → (s.cellsOf d.toNat |>.map (·.const.node)).Nodup →
         Ends o fun t =>
           t.cal = { s.cal with working := t.cal.working } ∧
           t.cal.working = { s.cal.working with cells := t.cal.working.cells } ∧
           t.cal.working.cells = s.cal.working.cells.map (fun p => p.map fun q =>
             match (s.cellsOf d.toNat).find? (fun c => c.const.node == q.node) with
             | some c => { q with zero := roundDiv c.window.sum s.filterLen }
             | none => q) ∧
           Replied s t r .ok (listBytes (fun c => bytesOf 1 c.const.node
             ++ sbytesOf 4 ((s.cal.working.cellList.find? fun q => q.node == c.const.node).elim 0 (·.zero))
             ++ sbytesOf 4 (roundDiv c.window.sum s.filterLen)) (s.cellsOf d.toNat)))) ∧
   (∀ tag p s,
     let r : Request := { tag := tag, kind := 16#8, args := [p] }
     let o := exec (.spanFromPoint tag p) s
     s.canExecute r = true →
     (s.aud.run = .closed ∨ s.aud.points.length ≤ p.toNat → o = .next (s.popRequest.answer r .badIndex [])) ∧
     ∀ q, s.aud.run ≠ .closed → s.aud.points[p.toNat]? = some q →
       let reasons := reasonsWhere (s.runReasons q.deck ++ pointReasons q)
       (s.SetsSound → ReasonsAre reasons (SpanReason s q)) ∧
       (s.cal.mode = .normal → o = .next (s.popRequest.answer r .wrongMode [])) ∧
       (s.cal.mode = .cal → s.commitQueued = true → o = .next (s.popRequest.answer r .busy [])) ∧
       (s.cal.mode = .cal → s.commitQueued = false → reasons ≠ [] →
         o = .next (s.popRequest.answer r .notReady (reasonSet reasons))) ∧
       ∀ g, s.cal.mode = .cal → s.commitQueued = false → reasons = [] → q.gross = some g →
         let span := fun (c : Cell) => roundDiv ((c.const.span : Int) * q.nominal) g
         let fits := 0 < g ∧ ∀ c ∈ s.cellsOf q.deck, 1 ≤ span c ∧ span c ≤ 16777215
         (¬fits → o = .next (s.popRequest.answer r .range [])) ∧
         (fits → (s.cellsOf q.deck |>.map (·.const.node)).Nodup → Ends o fun t =>
           t.cal = { s.cal with working := t.cal.working } ∧
           t.cal.working = { s.cal.working with cells := t.cal.working.cells } ∧
           t.cal.working.cells = s.cal.working.cells.map (fun x => x.map fun y =>
             match (s.cellsOf q.deck).find? (fun c => c.const.node == y.node) with
             | some c => { y with span := (span c).toNat }
             | none => y) ∧
           Replied s t r .ok (listBytes (fun c => bytesOf 1 c.const.node
             ++ sbytesOf 4 ((s.cal.working.cellList.find? fun y => y.node == c.const.node).elim 0 fun y => (y.span : Int))
             ++ sbytesOf 4 (span c)) (s.cellsOf q.deck))))) ∧
  ∀ s t, s.SetsSound → step s = .next t → t.SetsSound

/-- COMMIT, LOG-ERASE and SERIAL-RESTORE, by the lines of R157, R164 and R165 in their order: refused, or accepted: the
job joins the rear of the store job queue, and a COMMIT sets the commit mark. A COMMIT is judged on the set's consistency
(R158), and its answer counts the parameters that differ; which they are, in parameter order, when two sets are equal, and
which decks have changed are R153's. That DECK_CELLS holds of deck numbers beyond the set's own too, and the order of the
reasons in the answer, are the model's choices (notes/assumptions/26, 44). -/
def Obligations.CalibrationJobsAccepted : Prop :=
  (∀ tag s,
    let r : Request := { tag := tag, kind := 17#8, args := [] }
    let o := exec (.commit tag) s
    let refused := fun st body => o = .next (s.popRequest.answer r st body)
    let failing := inconsistencies s.cal.working
    let idle := (∀ c ∈ s.slc.claims, c = .none) ∧ s.slc.slot0.state = .free ∧ s.slc.slot1.state = .free
    s.canExecute r = true →
    (s.cal.mode = .normal → refused .wrongMode []) ∧
    (s.cal.mode = .cal →
      (s.mst.storeFault = true → refused .storeFault []) ∧
      (s.mst.storeFault = false → s.jobQueued .cal = true → refused .busy []) ∧
      (s.mst.storeFault = false → s.jobQueued .cal = false →
        (max32 ≤ s.cal.counter → refused .range []) ∧
        (s.cal.counter < max32 →
          (32 ≤ s.cal.log.length → refused .logFull []) ∧
          (s.cal.log.length < 32 →
            (sameSet s.cal.working s.cal.active = true → refused .nothingToCommit []) ∧
            (sameSet s.cal.working s.cal.active = false →
              (failing ≠ [] → refused .notReady (reasonSet failing)) ∧
              (failing = [] → ¬idle → refused .notIdle []) ∧
              (failing = [] → idle → Ends o fun t =>
                Replied s t r .accepted
                  (wordBytes (setCode s.cal.working) ++ bytesOf 4 (differences s.cal.working s.cal.active).length) ∧
                t.mst.jobs = s.mst.jobs ++ [.commit] ∧ t.slc.commitMark = true ∧ t.cal = s.cal ∧
                t.entryAspect = .stop))))))) ∧
  ((∀ tag s,
     let r : Request := { tag := tag, kind := 18#8, args := [] }
     let o := exec (.logErase tag) s
     let refused := fun st body => o = .next (s.popRequest.answer r st body)
     s.canExecute r = true →
     (s.cal.mode = .normal → refused .wrongMode []) ∧
     (s.cal.mode = .cal →
       (s.mst.storeFault = true → refused .storeFault []) ∧
       (s.mst.storeFault = false → s.jobQueued .cal = true → refused .busy []) ∧
       (s.mst.storeFault = false → s.jobQueued .cal = false →
         (max32 ≤ s.cal.counter → refused .range []) ∧
         (s.cal.counter < max32 → (∃ x ∈ s.cal.log, x.read = false) → refused .notReady (reasonSet [.unread])) ∧
         (s.cal.counter < max32 → (∀ x ∈ s.cal.log, x.read = true) → Ends o fun t =>
           Replied s t r .accepted [] ∧ t.mst.jobs = s.mst.jobs ++ [.logErase] ∧ t.cal = s.cal)))) ∧
   (∀ tag v s,
     let r : Request := { tag := tag, kind := 19#8, args := bytesOf 4 v.toNat }
     let o := exec (.serialRestore tag v) s
     let refused := fun st => o = .next (s.popRequest.answer r st [])
     let floored := (∀ n, s.tku.serials = some n → n.issued ≤ v.toNat) ∧
       (recPasses serialBytes s.mst.store.ack = true → s.mst.store.ack.contents ≤ v.toNat)
     s.canExecute r = true →
     (s.cal.mode = .normal → refused .wrongMode) ∧
     (s.cal.mode = .cal →
       (s.mst.storeFault = true → refused .storeFault) ∧
       (s.mst.storeFault = false → s.mst.jobs ≠ [] ∨ s.tku.heldAck ≠ none → refused .busy) ∧
       (s.mst.storeFault = false → s.mst.jobs = [] → s.tku.heldAck = none →
         (max32 ≤ s.cal.counter → refused .range) ∧
         (s.cal.counter < max32 →
           (32 ≤ s.cal.log.length → refused .logFull) ∧
           (s.cal.log.length < 32 → ¬floored → refused .range) ∧
           (s.cal.log.length < 32 → floored → Ends o fun t =>
             Replied s t r .accepted [] ∧ t.mst.jobs = [.restore v.toNat] ∧ t.mst.running.isSome = true ∧
             t.cal = s.cal ∧ t.tku = s.tku)))))) ∧
  ∀ (m : MetroSet) (act : Option MetroSet), SetSound m → (∀ a, act = some a → SetSound a) →
    ReasonsAre (inconsistencies m) (SetFails m) ∧
    (∀ p, p ∈ differences m act ↔ ∃ x, ¬(SetHas m p x ↔ ∃ a, act = some a ∧ SetHas a p x)) ∧
    (differences m act).Pairwise Param.before ∧
    (sameSet m act = true ↔ ∃ a, act = some a ∧ (∀ p x, SetHas m p x ↔ SetHas a p x) ∧
      m.cellList.map (·.node) = a.cellList.map (·.node)) ∧
    ∀ d, d ∈ changedDecks m act ↔ d < m.n ∧ (act = none ∨ ∃ a, act = some a ∧
      (m.n ≠ a.n ∨ m.e ≠ a.e ∨ m.maxes[d]? ≠ a.maxes[d]? ∨
        ∃ c, (c ∈ m.cellList ∨ c ∈ a.cellList) ∧ c.deck = d ∧
          ∃ x, x.node = c.node ∧ ¬(x ∈ m.cellList ↔ x ∈ a.cellList)))

/-- The operating mode: the position of the switch as read at power-up and at each link reset, and unchanged by every
other command while the supply is good; a change of the position raises SWITCH_MOVED with the mode (R147). -/
def Obligations.ModeFollowsSwitch : Prop :=
  (∀ m s, s.powered = false → Ends (exec (.powerUp m) s) fun t => t.cal.mode = m ∧ t.cal.switch = m) ∧
  (∀ tag s, s.canExecute { tag := tag, kind := 20#8, args := [0#8] } = true → Ends (exec (.reset tag 0#8) s) fun t =>
    t.cal.mode = s.cal.switch ∧ t.cal.switch = s.cal.switch ∧ t.mst = s.mst) ∧
  (∀ p s, s.powered = true → p ≠ s.cal.switch → Ends (exec (.switchMoved p) s) fun t =>
    t.cal = { s.cal with switch := p } ∧ Noticed s t (.switchMoved p s.cal.mode)) ∧
  (∀ c s t, c.isSupply = false → (∀ tag, c ≠ .reset tag 0#8) → exec c s = .next t → t.cal.mode = s.cal.mode)

/-! ### The gatehouse link -/

/-- RESET (LINK): queues, claims, slots, the bridge line, flags and the audit run go; settings, zeros, tables, the time
and the store's jobs are kept; every deck with a zero and more than 20e on it is marked UNTRACKED; the answer is the
only response, and carries the mode; the log's read marks clear, part-assembled frames are dropped, and the report delay and
maximum interval timers stop (R39, R41, R45, R64, R123, R163, R167, R195, R196). Any other scope is BAD_VALUE. That the monitors' last
values stay, and that nothing more is judged at its end, are the model's inferences (notes/assumptions/23, 40). -/
def Obligations.LinkResets : Prop :=
  ∀ tag scope s, s.canExecute { tag := tag, kind := 20#8, args := [scope] } = true →
    (scope ≠ 0#8 → exec (.reset tag scope) s =
      .next (s.popRequest.answer { tag := tag, kind := 20#8, args := [scope] } .badValue [])) ∧
    (scope = 0#8 → Ends (exec (.reset tag scope) s) fun t =>
      t.gpt.requests = [] ∧ t.gpt.notices = [] ∧ t.gpt.overflow = false ∧ t.gpt.fairness = 0 ∧
      t.gpt.responses = [{ tag := tag, kind := 20#8, status := .ok, body := [modeCode s.cal.switch] }] ∧
      t.gpt.time = s.gpt.time ∧ t.gpt.unanswered = s.gpt.unanswered ∧ t.gpt.dropped = s.gpt.dropped ∧
      t.gpt.lastReported = s.gpt.lastReported ∧ t.fpt.scanWaiting = none ∧ t.fpt.entryMark = true ∧
      t.fpt.exitMark = true ∧ t.scn = s.scn ∧ t.settings = s.settings ∧ t.classes = s.classes ∧
      t.slc.permits = s.slc.permits ∧ t.slc.bars = s.slc.bars ∧ t.slc.commitMark = s.slc.commitMark ∧
      t.slc.waiting = none ∧ t.slc.slot0 = freeSlot ∧ t.slc.slot1 = freeSlot ∧ (∀ d, t.claimOf d = .none) ∧
      t.axt.line = [] ∧ (∀ b : Fin 7, t.axt.last[b] = none) ∧ t.axt.untracked = s.axt.untracked ∧
      t.aud.run = .closed ∧ t.aud.points = [] ∧ t.aud.standings = s.aud.standings ∧ t.mst = s.mst ∧
      t.tku = { s.tku with ring := s.tku.ring.map fun x => { x with sent := false } } ∧
      t.cells = s.cells.map (fun c => { c with flags := Vector.replicate 12 false }) ∧
      t.cal = { s.cal with mode := s.cal.switch, log := s.cal.log.map fun x => { x with read := false } } ∧
      t.fpt.inward = { s.fpt.inward with rx := [] } ∧ t.gpt.inward = { s.gpt.inward with rx := [] } ∧
      ∀ (d : Nat) (k : Deck), s.decks[d]? = some k → ∃ k' : Deck, t.decks[d]? = some k' ∧ k'.zero = k.zero ∧ k'.w = k.w ∧
        k'.filter = k.filter ∧ k'.motion = k.motion ∧ k'.fault = k.fault ∧ k'.interval = k.interval ∧
        k'.reportMark = true ∧ k'.settle = none ∧ k'.checked = false ∧ k'.delay = none ∧ k'.maxInterval = none ∧
        (k'.untracked = true ↔ k.untracked = true ∨ ∃ g, k.gross = some g ∧ 20 * s.division < g))

/-- SET-TIME sets the time, answers the one it replaced, and starts the sweeps at its first; TIME_TICK raises it by one
second, and it stays at its greatest value and while UNSET (R190). -/
def Obligations.TimeKept : Prop :=
  (∀ tag (v : BitVec 32) s, s.canExecute { tag := tag, kind := 2#8, args := bytesOf 4 v.toNat } = true →
    Ends (exec (.setTime tag v) s) fun t =>
      Replied s t { tag := tag, kind := 2#8, args := bytesOf 4 v.toNat } .ok (opt32 s.gpt.time) ∧
      t.gpt.time = some v.toNat ∧ t.gpt.phase = 0 ∧
      (s.gpt.time = none → t.tku = { s.tku with sweep := some 60000 } ∧ t.aud = { s.aud with sweep := some 60000 }) ∧
      (s.gpt.time ≠ none → t.tku = s.tku ∧ t.aud = s.aud)) ∧
  (∀ s, s.powered = true → Ends (exec .timeTick s) fun t =>
    (s.gpt.time = none → t.gpt.time = none) ∧
    (∀ v, s.gpt.time = some v → v < 4294967295 → t.gpt.time = some (v + 1)) ∧
    (s.gpt.time = some 4294967295 → t.gpt.time = some 4294967295))

/-- Every table is read as it stands, its fields in the order of the table that defines them, and an index beyond it is
answered BAD_INDEX (R24, R40, R51, R62, R67, R77, R78, R88, R90, R91, R119, R152, R163, R168, R188, R189, R191, R199).
Reading an audit log entry sets its read mark; no other read changes anything but the port's queues. Requests the port
does not know, and tables that are unknown or cannot be written, are answered and change nothing else (R187, R188). What
these answers settle beyond the rules is the model's: how a remaining time is rounded, the sizes carried over from R200 to
R202, empty entries, the read mark as it stood before the read, an entry of the grouping, a deck's verdict without its
reasons, the order of a point's fields, the codes of its states, the expiry of a DECKS answer, the entry that answers for a node
only the active set holds, the untracked counts of IDENTITY as six fields, and which fields of several values stand as
a list (notes/assumptions/10, 18, 30, 34, 36, 46, 47, 49, 57, 58, 63). -/
def Obligations.RequestsAnswered : Prop :=
  (∀ tag (index : BitVec 16) s,
     let i := index.toNat
     let asked := fun table => s.canExecute (readRequest tag table index) = true
     let reply := fun table body => Host.Outcome.next (s.popRequest.answer (readRequest tag table index) .ok body)
     let none' := fun table => Host.Outcome.next (s.popRequest.answer (readRequest tag table index) .badIndex [])
     (asked 0#8 → (∀ v, s.settings[i]? = some v → exec (.readEntrySettings tag index) s = reply 0#8 (sbytesOf 4 v)) ∧
       (46 < i → exec (.readEntrySettings tag index) s = none' 0#8)) ∧
     (asked 1#8 →
       (∀ c, s.cells[i]? = some c → exec (.readEntryCells tag index) s = reply 1#8
         (bytesOf 1 i ++ bytesOf 1 c.const.node ++ bytesOf 1 c.const.deck ++ sbytesOf 4 c.const.zero
           ++ bytesOf 4 c.const.span ++ listBytes (fun b => bytesOf 4 b.1 ++ sbytesOf 4 b.2) c.const.breaks
           ++ bytesOf 4 c.const.corner
           ++ optField 8 (c.last.map fun l => sbytesOf 3 l.raw ++ sbytesOf 2 l.temperature ++ bytesOf 2 l.excitation
             ++ [replyStatusCode l.status])
           ++ optMass c.mass ++ listBytes (sbytesOf 3) c.window
           ++ [if c.fault = none then 0#8 else 1#8, optCode cellFaultCode c.fault]
           ++ bytesOf 4 c.clearing ++ bytesOf 4 c.misses ++ optMass c.drift
           ++ [marksByte (c.flags.toList.take 8), marksByte (c.flags.toList.drop 8 ++ [c.suspect, c.warn])])) ∧
       (s.cells.length ≤ i → exec (.readEntryCells tag index) s = none' 1#8)) ∧
     (asked 2#8 →
       (∀ k, s.decks[i]? = some k → exec (.readEntryDecks tag index) s = reply 2#8
         ([conditionCode (s.condition i k), optCode deckFaultCode k.fault, motionCode k.motion,
            zeroStatusCode k.zeroStatus, marksByte [s.deckSuspect i, s.deckWarn i, k.untracked], claimCode (s.claimOf i),
            standingCode (s.standingOf i)]
           ++ bytesOf 4 (match s.standingOf i with | .verified expiry => expiry | _ => 0)
           ++ bytesOf 1 (s.axleCount i) ++ bytesOf 1 (s.strayCount i)
           ++ optMass k.w ++ optMass (k.zero.map (·.z)) ++ optMass (k.zero.map (·.init)) ++ optMass k.gross
           ++ optMass (k.gross.map fun g => roundDiv g s.division * s.division)
           ++ listBytes (sbytesOf 4) k.filter ++ listBytes (sbytesOf 4) k.motionWin)) ∧
       (s.decks.length ≤ i → exec (.readEntryDecks tag index) s = none' 2#8)) ∧
     (asked 3#8 →
       let m := s.cal.working
       (s.SetsSound → (s.entryDiffers i = true ↔ ∃ p ∈ differences m s.cal.active, EntryHolds m s.cal.active i p)) ∧
       let differs := marksByte [s.entryDiffers i]
       (i = 0 → exec (.readEntryMetro tag index) s = reply 3#8
         (bytesOf 4 m.n ++ bytesOf 4 m.e ++ bytesOf 4 m.interval ++ [differs] ++ wordBytes (checkWord (setBytes m))
           ++ optField 2 (s.cal.active.map fun a => wordBytes (checkWord (setBytes a)))
           ++ bytesOf 4 (differences m s.cal.active).length ++ reasonSet (inconsistencies m))) ∧
       (1 ≤ i → i ≤ 6 → exec (.readEntryMetro tag index) s = reply 3#8
         (optMass (m.maxes[i - 1]?.map fun v => (v : Int)) ++ [differs])) ∧
       (∀ c, 7 ≤ i → m.cells[i - 7]? = some (some c) → exec (.readEntryMetro tag index) s = reply 3#8
         (bytesOf 1 c.node ++ bytesOf 1 c.deck ++ sbytesOf 4 c.zero ++ bytesOf 4 c.span ++ bytesOf 4 c.corner
           ++ listBytes (fun b => bytesOf 4 b.1 ++ sbytesOf 4 b.2) c.breaks ++ [differs])) ∧
       (7 ≤ i → m.cells[i - 7]? = some none →
         exec (.readEntryMetro tag index) s = reply 3#8 (List.replicate 15 0#8 ++ [differs])) ∧
       (38 < i → exec (.readEntryMetro tag index) s = none' 3#8)) ∧
     (asked 4#8 →
       (∀ c, s.classes[i]? = some (some c) → exec (.readEntryClasses tag index) s = reply 4#8
         (bytesOf 1 c.code ++ listBytes (fun x => [groupTypeCode x]) c.pattern ++ listBytes (sbytesOf 4) c.limits
           ++ sbytesOf 4 c.grossLimit ++ bytesOf 4 c.tolerance.toNat ++ [marksByte [c.hold]])) ∧
       (s.classes[i]? = some none → exec (.readEntryClasses tag index) s = reply 4#8 [0#8]) ∧
       (23 < i → exec (.readEntryClasses tag index) s = none' 4#8)) ∧
     (asked 5#8 →
       (∀ p, s.slc.permits[i]? = some p → exec (.readEntryPermits tag index) s = reply 5#8
         (bytesOf 8 p.identity.toNat ++ bytesOf 1 p.classCode ++ optMass (p.tare.map fun x => (x.1 : Int))
           ++ opt32 (p.tare.map (·.2)) ++ [marksByte [p.valid]])) ∧
       (31 < i → exec (.readEntryPermits tag index) s = none' 5#8)) ∧
     (asked 6#8 → (∀ w, s.slc.bars[i]? = some w → exec (.readEntryBarred tag index) s = reply 6#8 (bytesOf 4 w.toNat)) ∧
       (63 < i → exec (.readEntryBarred tag index) s = none' 6#8)) ∧
     (asked 7#8 →
       (∀ u, i = (slotCode u).toNat →
         let v := s.slot u
         let axles := s.axleList u
         let groups := s.grouping u
         let check := match v.check with
           | .none => [0#8]
           | .current c => 1#8 :: checkBody c
           | .frozen c => 2#8 :: checkBody c
         exec (.readEntrySlots tag index) s = reply 7#8
           ([slotStateCode v.state] ++ identityBytes v.identity ++ opt32 v.permit
             ++ optField 2 ((s.runOf u).head?.bind fun a => (s.runOf u).getLast?.map fun b => bytesOf 1 a ++ bytesOf 1 b)
             ++ [marksByte [v.barred, v.spanBreach, v.intruded, v.overHeld, v.axleOverflow, v.quiet],
                 if v.quietTimer = none then 1#8 else 0#8]
             ++ listBytes (fun x => bytesOf 4 (x.2 + 1) ++ bytesOf 1 x.1.2 ++ opt32 x.1.1.spacing
                 ++ bytesOf 4 x.1.1.duration ++ [marksByte [x.1.1.suspect]]) axles.zipIdx
             ++ bytesOf 4 (s.overflowCount u)
             ++ listBytes (fun x =>
                 let ahead := ((groups.take x.2).map (·.length)).sum
                 [groupTypeCode (groupType x.1.length)] ++ bytesOf 4 x.1.length ++ bytesOf 4 (ahead + 1)
                   ++ bytesOf 4 (ahead + x.1.length) ++ listBytes (bytesOf 1) (x.1.map (·.2)).eraseDups) groups.zipIdx
             ++ check)) ∧
       (i = 2 → exec (.readEntrySlots tag index) s = reply 7#8
         (listBytes (fun c => [claimCode c]) s.slc.claims ++ [marksByte [s.slc.commitMark]]
           ++ identityBytes s.slc.waiting ++ opt32 (s.slc.waitingTimer.map remainingSeconds)
           ++ [aspectCode s.entryAspect, aspectCode s.exitAspect])) ∧
       (2 < i → exec (.readEntrySlots tag index) s = none' 7#8)) ∧
     (asked 8#8 →
       (∀ p, i ≤ 47 → s.tku.pending[i]? = some p → exec (.readEntryPending tag index) s = reply 8#8
         (bytesOf 8 p.inbound.identity.toNat ++ bytesOf 4 p.inbound.serial ++ sbytesOf 4 p.inbound.gross
           ++ bytesOf 4 p.inbound.time ++ bytesOf 1 p.inbound.classCode ++ [marksByte [s.inFlight p]])) ∧
       (i ≤ 47 → s.tku.pending.length ≤ i → exec (.readEntryPending tag index) s = reply 8#8 []) ∧
       (47 < i → exec (.readEntryPending tag index) s = none' 8#8)) ∧
     (asked 9#8 →
       (∀ x, i ≤ 31 → s.cal.log[i]? = some x → exec (.readEntryAuditlog tag index) s =
         .next ({ s.popRequest with cal := { s.cal with log := s.cal.log.set i { x with read := true } } }.answer
           (readRequest tag 9#8 index) .ok
           (bytesOf 4 x.entry.counter ++ [logKindCode x.entry.kind] ++ opt32 x.entry.time
             ++ listBytes itemBytes x.entry.items ++ bytesOf 4 x.entry.total ++ [marksByte [x.read]]))) ∧
       (i ≤ 31 → s.cal.log.length ≤ i → exec (.readEntryAuditlog tag index) s = reply 9#8 []) ∧
       (31 < i → exec (.readEntryAuditlog tag index) s = none' 9#8)) ∧
     (asked 10#8 →
       (i = 0 → exec (.readEntryAuditrun tag index) s = reply 10#8
         ([runStateCode s.aud.run] ++ listBytes (bytesOf 1) s.aud.decks ++ listBytes (bytesOf 2) s.aud.traffic
           ++ bytesOf 4 s.aud.points.length ++ opt32 (s.aud.timer.map remainingSeconds)
           ++ listBytes (fun d =>
               let ps := s.aud.points.filter (·.deck == d)
               [auditVerdictCode (if ps = [] then .none else if auditReasons s.division ps = [] then .pass else .fail)])
             ((s.aud.decks.zip s.aud.traffic).map (·.1)))) ∧
       (∀ p, 1 ≤ i → i ≤ 16 → s.aud.points[i - 1]? = some p → exec (.readEntryAuditrun tag index) s = reply 10#8
         (bytesOf 1 p.deck ++ sbytesOf 4 p.nominal ++ bytesOf 1 p.position ++ [pointStateCode p.state]
           ++ optMass p.indication ++ optMass p.gross ++ optMass p.error ++ optMass p.mpe
           ++ [optCode pointVerdictCode p.verdict])) ∧
       (1 ≤ i → i ≤ 16 → s.aud.points.length < i → exec (.readEntryAuditrun tag index) s = reply 10#8 []) ∧
       (16 < i → exec (.readEntryAuditrun tag index) s = none' 10#8)) ∧
     (asked 11#8 → (i = 0 → exec (.readEntryIdentity tag index) s =
         reply 11#8 (identityEntry s ++ wordBytes (checkWord (identityEntry s)))) ∧
       (0 < i → exec (.readEntryIdentity tag index) s = none' 11#8))) ∧
  ((∀ tag kind args s, s.canExecute { tag := tag, kind := kind, args := args } = true →
     (20 < kind.toNat → exec (.unknownRequest tag kind args) s =
       .next (s.popRequest.answer { tag := tag, kind := kind, args := args } .unknownRequest [])) ∧
     (kind.toNat ≤ 20 → formOk kind args = false → exec (.unknownRequest tag kind args) s =
       .next (s.popRequest.answer { tag := tag, kind := kind, args := args } .badValue []))) ∧
   (∀ tag table index contents s, s.canExecute (writeRequest tag table index contents) = true →
     table.toNat ∈ [1, 2, 7, 8, 9, 10, 11] → exec (.writeEntryReadOnlyTable tag table index contents) s =
       .next (s.popRequest.answer (writeRequest tag table index contents) .badValue [])) ∧
   (∀ tag table index contents s, 12 ≤ table.toNat →
     (s.canExecute (readRequest tag table index) = true → exec (.unknownTableName tag 0#8 table index []) s =
       .next (s.popRequest.answer (readRequest tag table index) .badIndex [])) ∧
     (s.canExecute (writeRequest tag table index contents) = true →
       exec (.unknownTableName tag 1#8 table index contents) s =
         .next (s.popRequest.answer (writeRequest tag table index contents) .badIndex []))))

/-- SETTINGS and CLASSES are written while every slot is FREE and no run is open, and else answered NOT_IDLE. A setting's
value is taken to the nearer end of its range, the filter length to the nearest allowed value below, and a value so taken
answers OK_CLAMPED; a mask is set or clear; ranges and defaults are those of the tables of R20 and R189, and the windows of
a length written are cut to their newest values at once, the motion left as it stands (R13, R20, R30, R31, R189). A class
entry is emptied, refused by the cases of R89 in their order, or written whole, each limit and the tolerance taken into its
range with OK_CLAMPED (R88, R89). PERMITS and BARRED are written entry by entry: a permit entry refused BAD_INDEX,
BAD_VALUE or DUPLICATE, or written whole, with the slots that point at it refreshed and their checks computed again; a word
of 32 bar flags (R77, R78, R92). That the index of a permit entry is judged before its contents, the values a mask is
written with, a class code 0 emptying the entry whatever follows, and 0x80000000 read as a limit below its range are the
model's choices (notes/assumptions/4, 20, 30, 43). -/
def Obligations.TablesWritten : Prop :=
  ((∀ row ∈ settingRows, ∀ i, row.1 ≤ i → i ≤ row.2.1 →
     settingRange i = some (row.2.2.1, row.2.2.2.1) ∧ defaultSettings[i]? = some row.2.2.2.2) ∧
   (defaultSettings[2]? = some 4 ∧ ∀ i, 35 ≤ i → i ≤ 46 → settingRange i = none ∧ defaultSettings[i]? = some 0) ∧
   (∀ tag (index : BitVec 16) (contents : List Byte) s,
     let r := writeRequest tag 0#8 index contents
     let o := exec (.writeEntrySettings tag index contents) s
     let x := intOf contents
     s.canExecute r = true → contents.length = 4 →
     (46 < index.toNat → o = .next (s.popRequest.answer r .badIndex [])) ∧
     (index.toNat ≤ 46 → s.notIdle = true → o = .next (s.popRequest.answer r .notIdle [])) ∧
     (∀ lo hi, s.notIdle = false → index.toNat ≠ 2 → settingRange index.toNat = some (lo, hi) →
       let v := if x < lo then lo else if hi < x then hi else x
       Ends o fun t =>
         Replied s t r (if v = x then .ok else .okClamped) (sbytesOf 4 v) ∧
         t.settings = s.settings.setIfInBounds index.toNat v ∧
         (index.toNat = 3 → ∀ (d : Nat) (k : Deck), s.decks[d]? = some k → ∃ k' : Deck, t.decks[d]? = some k' ∧
           k'.motionWin = k.motionWin.drop (k.motionWin.length - v.toNat) ∧ k'.motion = k.motion ∧ k'.w = k.w)) ∧
     (s.notIdle = false → index.toNat = 2 → Ends o fun t => ∃ f ∈ [1, 2, 4, 8, 16],
       (f ≤ x ∨ f = 1) ∧ (∀ f' ∈ [1, 2, 4, 8, 16], f' ≤ x → f' ≤ f) ∧
       Replied s t r (if f = x then .ok else .okClamped) (sbytesOf 4 f) ∧
       t.settings = s.settings.setIfInBounds 2 f ∧
       (∀ (d : Nat) (k : Deck), s.decks[d]? = some k → ∃ k' : Deck, t.decks[d]? = some k' ∧
         k'.filter = k.filter.drop (k.filter.length - f.toNat) ∧ k'.w = k.w ∧ k'.motion = k.motion) ∧
       t.cells = s.cells.map fun c => { c with window := c.window.drop (c.window.length - f.toNat) }) ∧
     (s.notIdle = false → 35 ≤ index.toNat → index.toNat ≤ 46 →
       (x = 0 ∨ x = 1 → Ends o fun t =>
         Replied s t r .ok (sbytesOf 4 x) ∧ t.settings = s.settings.setIfInBounds index.toNat x) ∧
       (x ≠ 0 → x ≠ 1 → o = .next (s.popRequest.answer r .badValue [])))) ∧
   (∀ tag (index : BitVec 16) (contents : List Byte) s,
     let r := writeRequest tag 4#8 index contents
     let o := exec (.writeEntryClasses tag index contents) s
     s.canExecute r = true → contents.head? = some 0#8 →
     (23 < index.toNat → o = .next (s.popRequest.answer r .badIndex [])) ∧
     (index.toNat ≤ 23 → s.notIdle = true → o = .next (s.popRequest.answer r .notIdle [])) ∧
     (index.toNat ≤ 23 → s.notIdle = false → o =
       .next ({ s.popRequest with classes := s.classes.setIfInBounds index.toNat none }.answer r .ok [0#8]))) ∧
   (∀ tag (index : BitVec 16) (code : Nat) (types : List Byte) (limits : List Int) (grossLimit : Int) (tolerance : Nat)
      (hold : Bool) s,
     let number := fun (x : Int) => -2147483648 ≤ x ∧ x ≤ 2147483647
     let contents := bytesOf 1 code ++ listBytes (fun x => [x]) types ++ listBytes (sbytesOf 4) limits
       ++ sbytesOf 4 grossLimit ++ bytesOf 4 tolerance ++ [marksByte [hold]]
     let r := writeRequest tag 4#8 index contents
     let o := exec (.writeEntryClasses tag index contents) s
     let wrong := types = [] ∨ 6 < types.length ∨ (∃ x ∈ types, 3 < x.toNat) ∨ limits.length ≠ types.length
     let taken := ∃ (j : Nat) (c : ClassEntry), j ≠ index.toNat ∧ s.classes[j]? = some (some c) ∧ c.code = code
     let into := fun (x : Int) => if x < 1 then 1 else if 600000000 < x then 600000000 else x
     let outside := (∃ x ∈ grossLimit :: limits, x < 1 ∨ 600000000 < x) ∨ 100 < tolerance
     s.canExecute r = true → 1 ≤ code → code ≤ 255 → types.length ≤ 255 → limits.length ≤ 255 →
     (∀ x ∈ grossLimit :: limits, number x) → tolerance < 4294967296 →
     (23 < index.toNat → o = .next (s.popRequest.answer r .badIndex [])) ∧
     (index.toNat ≤ 23 → s.notIdle = true → o = .next (s.popRequest.answer r .notIdle [])) ∧
     (index.toNat ≤ 23 → s.notIdle = false →
       (wrong → o = .next (s.popRequest.answer r .badValue [])) ∧
       (¬wrong → taken → o = .next (s.popRequest.answer r .duplicate [])) ∧
       (¬wrong → ¬taken → ∀ pattern, types = pattern.map groupTypeCode → Ends o fun t => ∃ st,
         (outside → st = .okClamped) ∧ (¬outside → st = .ok) ∧
         let c : ClassEntry := { code := code, pattern := pattern, limits := limits.map into,
                                 grossLimit := into grossLimit, tolerance := min tolerance 100, hold := hold }
         t = { s.popRequest with classes := s.classes.setIfInBounds index.toNat (some c) }.answer r st
           (bytesOf 1 code ++ listBytes (fun x => [x]) types ++ listBytes (sbytesOf 4) c.limits
             ++ sbytesOf 4 c.grossLimit ++ bytesOf 4 (min tolerance 100) ++ [marksByte [hold]]))))) ∧
  ((∀ tag (index : BitVec 16) (p : Permit) s, s.canExecute (writeRequest tag 5#8 index (permitBytes p)) = true →
     index.toNat ≤ 31 → p.classCode ≤ 255 → (∀ x, p.tare = some x → x.1 < 2147483648 ∧ x.2 < 4294967296) →
     (p.valid = true → p.identity ≠ 0#64) →
     (s.permitTaken index.toNat p = true → exec (.writeEntryPermits tag index (permitBytes p)) s =
       .next (s.popRequest.answer (writeRequest tag 5#8 index (permitBytes p)) .duplicate [])) ∧
     (s.permitTaken index.toNat p = false → Ends (exec (.writeEntryPermits tag index (permitBytes p)) s) fun t =>
       Replied s t (writeRequest tag 5#8 index (permitBytes p)) .ok (permitBytes p) ∧
       t.slc.permits = s.slc.permits.setIfInBounds index.toNat p ∧
       ∀ u, (t.slot u).identity = (s.slot u).identity ∧ (t.slot u).state = (s.slot u).state ∧
         ((s.slot u).permit = some index.toNat → (t.slot u).permit =
           if p.valid = true ∧ (s.slot u).identity = some p.identity then some index.toNat else none) ∧
         ((s.slot u).permit ≠ some index.toNat → (t.slot u).permit = (s.slot u).permit) ∧
         ((s.slot u).permit = some index.toNat → (t.slot u).state = .positioned →
           (t.slot u).check = .current (t.computeCheck u)))) ∧
   (∀ tag (index : BitVec 16) (identity : Identity) (code : Byte) (tare : Option Int) (time : Option Nat) (valid : Bool) s,
     let contents := bytesOf 8 identity.toNat ++ [code] ++ optMass tare ++ opt32 time ++ [marksByte [valid]]
     let r := writeRequest tag 5#8 index contents
     let o := exec (.writeEntryPermits tag index contents) s
     s.canExecute r = true → (∀ m, tare = some m → -2147483648 < m ∧ m ≤ 2147483647) →
     (∀ v, time = some v → v < 4294967296) →
     (31 < index.toNat → o = .next (s.popRequest.answer r .badIndex [])) ∧
     (index.toNat ≤ 31 → (valid = true ∧ identity = 0#64) ∨ ¬(tare = none ↔ time = none) →
       o = .next (s.popRequest.answer r .badValue []))) ∧
   (∀ tag (index : BitVec 16) (w : BitVec 32) s,
     s.canExecute (writeRequest tag 6#8 index (bytesOf 4 w.toNat)) = true →
     (index.toNat ≤ 63 → Ends (exec (.writeEntryBarred tag index (bytesOf 4 w.toNat)) s) fun t =>
       Replied s t (writeRequest tag 6#8 index (bytesOf 4 w.toNat)) .ok (bytesOf 4 w.toNat) ∧
       (∀ h, h / 32 = index.toNat → t.barFlag h = w.getLsbD (h % 32)) ∧
       ∀ h, h / 32 ≠ index.toNat → t.barFlag h = s.barFlag h) ∧
     (63 < index.toNat → exec (.writeEntryBarred tag index (bytesOf 4 w.toNat)) s =
       .next (s.popRequest.answer (writeRequest tag 6#8 index (bytesOf 4 w.toNat)) .badIndex []))))

/-- ACK-FLAGS: each set flag of the cells named is cleared unless its condition is present in the monitor's last value,
and the answer counts those that remain (R22). -/
def Obligations.FlagsAcknowledged : Prop :=
  ∀ tag cell s, s.canExecute { tag := tag, kind := 10#8, args := [cell] } = true →
    let named := fun i => cell = 0xFF#8 ∨ i = cell.toNat
    (cell ≠ 0xFF#8 → s.cells.length ≤ cell.toNat → exec (.ackFlags tag cell) s =
      .next (s.popRequest.answer { tag := tag, kind := 10#8, args := [cell] } .badIndex [])) ∧
    (cell = 0xFF#8 ∨ cell.toNat < s.cells.length → Ends (exec (.ackFlags tag cell) s) fun t =>
      t.cells.length = s.cells.length ∧
      (∃ n, Replied s t { tag := tag, kind := 10#8, args := [cell] } .ok (bytesOf 4 n) ∧
        (cell ≠ 0xFF#8 → ∀ c, t.cells[cell.toNat]? = some c → n = c.flagsSet) ∧
        (cell = 0xFF#8 → n = (t.cells.map Cell.flagsSet).sum)) ∧
      ∀ (i : Nat) (c : Cell), s.cells[i]? = some c → ∃ c' : Cell, t.cells[i]? = some c' ∧
        c' = { c with flags := c'.flags } ∧ (¬named i → c' = c) ∧
        (named i → ∀ k h, c'.flags[flagPlace k h]? =
          (c.flags[flagPlace k h]?).map fun f => f && ((c.lastValue k).map (s.present k h)).getD false))

/-- What the gatehouse line is given next, by the order of R193, and what sending it does: the oldest answer, the first
unsent record, the oldest notice, or the report of the next deck with its mark set (R123, R192, R194), each body field by
field (R201, R202), of the length its kind allows (R198). That an answer's body is sent to its 508th byte, and the sizes of
a notice's contents, and the code of CLEARED in a CELL_FAULT notice, are the model's choices (notes/assumptions/18, 19, 54,
64). -/
def Obligations.GatehouseLineSends : Prop :=
  ∀ s, s.powered = true →
    let due := ∃ k ∈ s.decks, k.reportMark = true
    let up := min (s.gpt.fairness + 1) 8
    let turn := due → s.gpt.fairness < 8
    (∀ a as, s.gpt.responses = a :: as → turn → exec .sendResponse s =
      .next { s with gpt := { s.gpt with
        responses := as, fairness := up
        lineOut := frameBytes 0x31#8 (a.tag :: a.kind :: statusCode a.status :: a.body.take 508) } }) ∧
    (∀ i x, s.gpt.responses = [] → s.tku.ring[i]? = some x → x.sent = false →
      (∀ j y, j < i → s.tku.ring[j]? = some y → y.sent = true) → turn → exec .sendTicket s =
      .next { s with
        tku := { s.tku with ring := s.tku.ring.set i { x with sent := true } }
        gpt := { s.gpt with fairness := up, lineOut := frameBytes 0x33#8 (ticketFields x.record) } }) ∧
    (∀ n ns, s.gpt.responses = [] → (∀ x ∈ s.tku.ring, x.sent = true) → s.gpt.notices = n :: ns → turn →
      exec .sendNotice s = .next { s with gpt := { s.gpt with
        notices := ns, overflow := false, fairness := up
        lineOut := frameBytes 0x34#8 ([(noticeFields n.notice).1, marksByte [s.gpt.overflow, n.time.isSome]]
          ++ bytesOf 4 (n.time.getD 0) ++ (noticeFields n.notice).2) } }) ∧
    (∀ d k, (8 ≤ s.gpt.fairness ∨ s.gpt.responses = [] ∧ (∀ x ∈ s.tku.ring, x.sent = true) ∧ s.gpt.notices = []) →
      s.decks[d]? = some k → k.reportMark = true →
      (s.gpt.lastReported < d ∧ (∀ j, s.gpt.lastReported < j → j < d → s.marked j = false) ∨
        d ≤ s.gpt.lastReported ∧ ∀ j, s.gpt.lastReported < j ∨ j < d → s.marked j = false) →
      exec .sendWeight s = .next { s with
        decks := s.decks.set d { k with reportMark := false, delay := none, maxInterval := some s.maxIntervalMs }
        gpt := { s.gpt with fairness := 0, lastReported := d, lineOut := frameBytes 0x32#8 (weightFields s d k) } }) ∧
    ((∀ a, (responseFrame a).length ≤ 517) ∧ (∀ d k, (weightFields s d k).length = 18) ∧
     (∀ x, (ticketFields x).length = ticketLength x) ∧
     (∀ r, let n := r.capture.decks.length
       1 ≤ n → n ≤ 6 → r.capture.check.groups.length ≤ 6 →
       54 ≤ ticketLength (.weigh r) + 1 ∧ ticketLength (.weigh r) + 1 ≤ 139) ∧
     (∀ r, let n := r.capture.decks.length
       let p := r.capture.points.length
       1 ≤ n → n ≤ 6 → 1 ≤ p → p ≤ 16 → 48 ≤ ticketLength (.audit r) + 1 ∧ ticketLength (.audit r) + 1 ≤ 383) ∧
     (∀ a b, ticketLength (.void a b) + 1 = 10) ∧
     (∀ n time marks, (∀ counter code ds, n = .commitDone counter code ds → ds.length ≤ 6) →
       let body := [(noticeFields n).1, marks] ++ bytesOf 4 time ++ (noticeFields n).2
       7 ≤ body.length + 1 ∧ body.length + 1 ≤ 64) ∧
     ∀ st, statusCode st = placeIn [.ok, .okClamped, .accepted, .queueFull, .unknownRequest, .badIndex, .badValue, .range,
       .wrongMode, .notIdle, .notReady, .busy, .duplicate, .notFound, .full, .logFull, .nothingToCommit, .storeFault,
       .serialLost, .zeroRange] st)
end

