-- ==== Sys2Proof/Laws/State.lean ====
section
/-! SUPPORT. What each named update of the state leaves alone: one lemma per field per update. -/

namespace Sys2Proof.Machine


/-! ### modDeck -/

@[simp] theorem State.modDeck_pending (s : State) (d : Nat) (f : Deck → Deck) : (s.modDeck d f).pending = s.pending := rfl
@[simp] theorem State.modDeck_powered (s : State) (d : Nat) (f : Deck → Deck) : (s.modDeck d f).powered = s.powered := rfl
@[simp] theorem State.modDeck_fpt (s : State) (d : Nat) (f : Deck → Deck) : (s.modDeck d f).fpt = s.fpt := rfl
@[simp] theorem State.modDeck_scn (s : State) (d : Nat) (f : Deck → Deck) : (s.modDeck d f).scn = s.scn := rfl
@[simp] theorem State.modDeck_cells (s : State) (d : Nat) (f : Deck → Deck) : (s.modDeck d f).cells = s.cells := rfl
@[simp] theorem State.modDeck_axt (s : State) (d : Nat) (f : Deck → Deck) : (s.modDeck d f).axt = s.axt := rfl
@[simp] theorem State.modDeck_slc (s : State) (d : Nat) (f : Deck → Deck) : (s.modDeck d f).slc = s.slc := rfl
@[simp] theorem State.modDeck_classes (s : State) (d : Nat) (f : Deck → Deck) : (s.modDeck d f).classes = s.classes := rfl
@[simp] theorem State.modDeck_tku (s : State) (d : Nat) (f : Deck → Deck) : (s.modDeck d f).tku = s.tku := rfl
@[simp] theorem State.modDeck_aud (s : State) (d : Nat) (f : Deck → Deck) : (s.modDeck d f).aud = s.aud := rfl
@[simp] theorem State.modDeck_cal (s : State) (d : Nat) (f : Deck → Deck) : (s.modDeck d f).cal = s.cal := rfl
@[simp] theorem State.modDeck_mst (s : State) (d : Nat) (f : Deck → Deck) : (s.modDeck d f).mst = s.mst := rfl
@[simp] theorem State.modDeck_gpt (s : State) (d : Nat) (f : Deck → Deck) : (s.modDeck d f).gpt = s.gpt := rfl
@[simp] theorem State.modDeck_settings (s : State) (d : Nat) (f : Deck → Deck) : (s.modDeck d f).settings = s.settings := rfl

/-! ### modCell -/

@[simp] theorem State.modCell_pending (s : State) (i : Nat) (f : Cell → Cell) : (s.modCell i f).pending = s.pending := rfl
@[simp] theorem State.modCell_powered (s : State) (i : Nat) (f : Cell → Cell) : (s.modCell i f).powered = s.powered := rfl
@[simp] theorem State.modCell_fpt (s : State) (i : Nat) (f : Cell → Cell) : (s.modCell i f).fpt = s.fpt := rfl
@[simp] theorem State.modCell_scn (s : State) (i : Nat) (f : Cell → Cell) : (s.modCell i f).scn = s.scn := rfl
@[simp] theorem State.modCell_decks (s : State) (i : Nat) (f : Cell → Cell) : (s.modCell i f).decks = s.decks := rfl
@[simp] theorem State.modCell_axt (s : State) (i : Nat) (f : Cell → Cell) : (s.modCell i f).axt = s.axt := rfl
@[simp] theorem State.modCell_slc (s : State) (i : Nat) (f : Cell → Cell) : (s.modCell i f).slc = s.slc := rfl
@[simp] theorem State.modCell_classes (s : State) (i : Nat) (f : Cell → Cell) : (s.modCell i f).classes = s.classes := rfl
@[simp] theorem State.modCell_tku (s : State) (i : Nat) (f : Cell → Cell) : (s.modCell i f).tku = s.tku := rfl
@[simp] theorem State.modCell_aud (s : State) (i : Nat) (f : Cell → Cell) : (s.modCell i f).aud = s.aud := rfl
@[simp] theorem State.modCell_cal (s : State) (i : Nat) (f : Cell → Cell) : (s.modCell i f).cal = s.cal := rfl
@[simp] theorem State.modCell_mst (s : State) (i : Nat) (f : Cell → Cell) : (s.modCell i f).mst = s.mst := rfl
@[simp] theorem State.modCell_gpt (s : State) (i : Nat) (f : Cell → Cell) : (s.modCell i f).gpt = s.gpt := rfl
@[simp] theorem State.modCell_settings (s : State) (i : Nat) (f : Cell → Cell) : (s.modCell i f).settings = s.settings := rfl

/-! ### setSlot -/

@[simp] theorem State.setSlot_pending (s : State) (t : SlotId) (v : Slot) : (s.setSlot t v).pending = s.pending := by cases t <;> rfl
@[simp] theorem State.setSlot_powered (s : State) (t : SlotId) (v : Slot) : (s.setSlot t v).powered = s.powered := by cases t <;> rfl
@[simp] theorem State.setSlot_fpt (s : State) (t : SlotId) (v : Slot) : (s.setSlot t v).fpt = s.fpt := by cases t <;> rfl
@[simp] theorem State.setSlot_scn (s : State) (t : SlotId) (v : Slot) : (s.setSlot t v).scn = s.scn := by cases t <;> rfl
@[simp] theorem State.setSlot_cells (s : State) (t : SlotId) (v : Slot) : (s.setSlot t v).cells = s.cells := by cases t <;> rfl
@[simp] theorem State.setSlot_decks (s : State) (t : SlotId) (v : Slot) : (s.setSlot t v).decks = s.decks := by cases t <;> rfl
@[simp] theorem State.setSlot_axt (s : State) (t : SlotId) (v : Slot) : (s.setSlot t v).axt = s.axt := by cases t <;> rfl
@[simp] theorem State.setSlot_classes (s : State) (t : SlotId) (v : Slot) : (s.setSlot t v).classes = s.classes := by cases t <;> rfl
@[simp] theorem State.setSlot_tku (s : State) (t : SlotId) (v : Slot) : (s.setSlot t v).tku = s.tku := by cases t <;> rfl
@[simp] theorem State.setSlot_aud (s : State) (t : SlotId) (v : Slot) : (s.setSlot t v).aud = s.aud := by cases t <;> rfl
@[simp] theorem State.setSlot_cal (s : State) (t : SlotId) (v : Slot) : (s.setSlot t v).cal = s.cal := by cases t <;> rfl
@[simp] theorem State.setSlot_mst (s : State) (t : SlotId) (v : Slot) : (s.setSlot t v).mst = s.mst := by cases t <;> rfl
@[simp] theorem State.setSlot_gpt (s : State) (t : SlotId) (v : Slot) : (s.setSlot t v).gpt = s.gpt := by cases t <;> rfl
@[simp] theorem State.setSlot_settings (s : State) (t : SlotId) (v : Slot) : (s.setSlot t v).settings = s.settings := by cases t <;> rfl
@[simp] theorem State.setSlot_slc_claims (s : State) (t : SlotId) (v : Slot) : (s.setSlot t v).slc.claims = s.slc.claims := by cases t <;> rfl
@[simp] theorem State.setSlot_slc_commitMark (s : State) (t : SlotId) (v : Slot) : (s.setSlot t v).slc.commitMark = s.slc.commitMark := by cases t <;> rfl
@[simp] theorem State.setSlot_slc_permits (s : State) (t : SlotId) (v : Slot) : (s.setSlot t v).slc.permits = s.slc.permits := by cases t <;> rfl
@[simp] theorem State.setSlot_slc_bars (s : State) (t : SlotId) (v : Slot) : (s.setSlot t v).slc.bars = s.slc.bars := by cases t <;> rfl
@[simp] theorem State.setSlot_slc_waiting (s : State) (t : SlotId) (v : Slot) : (s.setSlot t v).slc.waiting = s.slc.waiting := by cases t <;> rfl
@[simp] theorem State.setSlot_slc_waitingTimer (s : State) (t : SlotId) (v : Slot) : (s.setSlot t v).slc.waitingTimer = s.slc.waitingTimer := by cases t <;> rfl

/-! ### setClaim -/

@[simp] theorem State.setClaim_pending (s : State) (d : Nat) (c : Claim) : (s.setClaim d c).pending = s.pending := rfl
@[simp] theorem State.setClaim_powered (s : State) (d : Nat) (c : Claim) : (s.setClaim d c).powered = s.powered := rfl
@[simp] theorem State.setClaim_fpt (s : State) (d : Nat) (c : Claim) : (s.setClaim d c).fpt = s.fpt := rfl
@[simp] theorem State.setClaim_scn (s : State) (d : Nat) (c : Claim) : (s.setClaim d c).scn = s.scn := rfl
@[simp] theorem State.setClaim_cells (s : State) (d : Nat) (c : Claim) : (s.setClaim d c).cells = s.cells := rfl
@[simp] theorem State.setClaim_decks (s : State) (d : Nat) (c : Claim) : (s.setClaim d c).decks = s.decks := rfl
@[simp] theorem State.setClaim_axt (s : State) (d : Nat) (c : Claim) : (s.setClaim d c).axt = s.axt := rfl
@[simp] theorem State.setClaim_classes (s : State) (d : Nat) (c : Claim) : (s.setClaim d c).classes = s.classes := rfl
@[simp] theorem State.setClaim_tku (s : State) (d : Nat) (c : Claim) : (s.setClaim d c).tku = s.tku := rfl
@[simp] theorem State.setClaim_aud (s : State) (d : Nat) (c : Claim) : (s.setClaim d c).aud = s.aud := rfl
@[simp] theorem State.setClaim_cal (s : State) (d : Nat) (c : Claim) : (s.setClaim d c).cal = s.cal := rfl
@[simp] theorem State.setClaim_mst (s : State) (d : Nat) (c : Claim) : (s.setClaim d c).mst = s.mst := rfl
@[simp] theorem State.setClaim_gpt (s : State) (d : Nat) (c : Claim) : (s.setClaim d c).gpt = s.gpt := rfl
@[simp] theorem State.setClaim_settings (s : State) (d : Nat) (c : Claim) : (s.setClaim d c).settings = s.settings := rfl
@[simp] theorem State.setClaim_slc_commitMark (s : State) (d : Nat) (c : Claim) : (s.setClaim d c).slc.commitMark = s.slc.commitMark := rfl
@[simp] theorem State.setClaim_slc_slot0 (s : State) (d : Nat) (c : Claim) : (s.setClaim d c).slc.slot0 = s.slc.slot0 := rfl
@[simp] theorem State.setClaim_slc_slot1 (s : State) (d : Nat) (c : Claim) : (s.setClaim d c).slc.slot1 = s.slc.slot1 := rfl
@[simp] theorem State.setClaim_slc_permits (s : State) (d : Nat) (c : Claim) : (s.setClaim d c).slc.permits = s.slc.permits := rfl
@[simp] theorem State.setClaim_slc_bars (s : State) (d : Nat) (c : Claim) : (s.setClaim d c).slc.bars = s.slc.bars := rfl
@[simp] theorem State.setClaim_slc_waiting (s : State) (d : Nat) (c : Claim) : (s.setClaim d c).slc.waiting = s.slc.waiting := rfl
@[simp] theorem State.setClaim_slc_waitingTimer (s : State) (d : Nat) (c : Claim) : (s.setClaim d c).slc.waitingTimer = s.slc.waitingTimer := rfl

/-! ### setLine -/

@[simp] theorem State.setLine_pending (s : State) (l : List Entry) : (s.setLine l).pending = s.pending := rfl
@[simp] theorem State.setLine_powered (s : State) (l : List Entry) : (s.setLine l).powered = s.powered := rfl
@[simp] theorem State.setLine_fpt (s : State) (l : List Entry) : (s.setLine l).fpt = s.fpt := rfl
@[simp] theorem State.setLine_scn (s : State) (l : List Entry) : (s.setLine l).scn = s.scn := rfl
@[simp] theorem State.setLine_cells (s : State) (l : List Entry) : (s.setLine l).cells = s.cells := rfl
@[simp] theorem State.setLine_decks (s : State) (l : List Entry) : (s.setLine l).decks = s.decks := rfl
@[simp] theorem State.setLine_slc (s : State) (l : List Entry) : (s.setLine l).slc = s.slc := rfl
@[simp] theorem State.setLine_classes (s : State) (l : List Entry) : (s.setLine l).classes = s.classes := rfl
@[simp] theorem State.setLine_tku (s : State) (l : List Entry) : (s.setLine l).tku = s.tku := rfl
@[simp] theorem State.setLine_aud (s : State) (l : List Entry) : (s.setLine l).aud = s.aud := rfl
@[simp] theorem State.setLine_cal (s : State) (l : List Entry) : (s.setLine l).cal = s.cal := rfl
@[simp] theorem State.setLine_mst (s : State) (l : List Entry) : (s.setLine l).mst = s.mst := rfl
@[simp] theorem State.setLine_gpt (s : State) (l : List Entry) : (s.setLine l).gpt = s.gpt := rfl
@[simp] theorem State.setLine_settings (s : State) (l : List Entry) : (s.setLine l).settings = s.settings := rfl

/-! ### raise -/

@[simp] theorem State.raise_pending (s : State) (n : Notice) : (s.raise n).pending = s.pending := by unfold State.raise; split <;> rfl
@[simp] theorem State.raise_powered (s : State) (n : Notice) : (s.raise n).powered = s.powered := by unfold State.raise; split <;> rfl
@[simp] theorem State.raise_fpt (s : State) (n : Notice) : (s.raise n).fpt = s.fpt := by unfold State.raise; split <;> rfl
@[simp] theorem State.raise_scn (s : State) (n : Notice) : (s.raise n).scn = s.scn := by unfold State.raise; split <;> rfl
@[simp] theorem State.raise_cells (s : State) (n : Notice) : (s.raise n).cells = s.cells := by unfold State.raise; split <;> rfl
@[simp] theorem State.raise_decks (s : State) (n : Notice) : (s.raise n).decks = s.decks := by unfold State.raise; split <;> rfl
@[simp] theorem State.raise_axt (s : State) (n : Notice) : (s.raise n).axt = s.axt := by unfold State.raise; split <;> rfl
@[simp] theorem State.raise_slc (s : State) (n : Notice) : (s.raise n).slc = s.slc := by unfold State.raise; split <;> rfl
@[simp] theorem State.raise_classes (s : State) (n : Notice) : (s.raise n).classes = s.classes := by unfold State.raise; split <;> rfl
@[simp] theorem State.raise_tku (s : State) (n : Notice) : (s.raise n).tku = s.tku := by unfold State.raise; split <;> rfl
@[simp] theorem State.raise_aud (s : State) (n : Notice) : (s.raise n).aud = s.aud := by unfold State.raise; split <;> rfl
@[simp] theorem State.raise_cal (s : State) (n : Notice) : (s.raise n).cal = s.cal := by unfold State.raise; split <;> rfl
@[simp] theorem State.raise_mst (s : State) (n : Notice) : (s.raise n).mst = s.mst := by unfold State.raise; split <;> rfl
@[simp] theorem State.raise_settings (s : State) (n : Notice) : (s.raise n).settings = s.settings := by unfold State.raise; split <;> rfl
@[simp] theorem State.raise_gpt_inward (s : State) (n : Notice) : (s.raise n).gpt.inward = s.gpt.inward := by unfold State.raise; split <;> rfl
@[simp] theorem State.raise_gpt_requests (s : State) (n : Notice) : (s.raise n).gpt.requests = s.gpt.requests := by unfold State.raise; split <;> rfl
@[simp] theorem State.raise_gpt_responses (s : State) (n : Notice) : (s.raise n).gpt.responses = s.gpt.responses := by unfold State.raise; split <;> rfl
@[simp] theorem State.raise_gpt_unanswered (s : State) (n : Notice) : (s.raise n).gpt.unanswered = s.gpt.unanswered := by unfold State.raise; split <;> rfl
@[simp] theorem State.raise_gpt_fairness (s : State) (n : Notice) : (s.raise n).gpt.fairness = s.gpt.fairness := by unfold State.raise; split <;> rfl
@[simp] theorem State.raise_gpt_lastReported (s : State) (n : Notice) : (s.raise n).gpt.lastReported = s.gpt.lastReported := by unfold State.raise; split <;> rfl
@[simp] theorem State.raise_gpt_time (s : State) (n : Notice) : (s.raise n).gpt.time = s.gpt.time := by unfold State.raise; split <;> rfl
@[simp] theorem State.raise_gpt_phase (s : State) (n : Notice) : (s.raise n).gpt.phase = s.gpt.phase := by unfold State.raise; split <;> rfl
@[simp] theorem State.raise_gpt_lineOut (s : State) (n : Notice) : (s.raise n).gpt.lineOut = s.gpt.lineOut := by unfold State.raise; split <;> rfl

/-! ### popRequest -/

@[simp] theorem State.popRequest_pending (s : State) : (s.popRequest).pending = s.pending := rfl
@[simp] theorem State.popRequest_powered (s : State) : (s.popRequest).powered = s.powered := rfl
@[simp] theorem State.popRequest_fpt (s : State) : (s.popRequest).fpt = s.fpt := rfl
@[simp] theorem State.popRequest_scn (s : State) : (s.popRequest).scn = s.scn := rfl
@[simp] theorem State.popRequest_cells (s : State) : (s.popRequest).cells = s.cells := rfl
@[simp] theorem State.popRequest_decks (s : State) : (s.popRequest).decks = s.decks := rfl
@[simp] theorem State.popRequest_axt (s : State) : (s.popRequest).axt = s.axt := rfl
@[simp] theorem State.popRequest_slc (s : State) : (s.popRequest).slc = s.slc := rfl
@[simp] theorem State.popRequest_classes (s : State) : (s.popRequest).classes = s.classes := rfl
@[simp] theorem State.popRequest_tku (s : State) : (s.popRequest).tku = s.tku := rfl
@[simp] theorem State.popRequest_aud (s : State) : (s.popRequest).aud = s.aud := rfl
@[simp] theorem State.popRequest_cal (s : State) : (s.popRequest).cal = s.cal := rfl
@[simp] theorem State.popRequest_mst (s : State) : (s.popRequest).mst = s.mst := rfl
@[simp] theorem State.popRequest_settings (s : State) : (s.popRequest).settings = s.settings := rfl
@[simp] theorem State.popRequest_gpt_inward (s : State) : (s.popRequest).gpt.inward = s.gpt.inward := rfl
@[simp] theorem State.popRequest_gpt_responses (s : State) : (s.popRequest).gpt.responses = s.gpt.responses := rfl
@[simp] theorem State.popRequest_gpt_notices (s : State) : (s.popRequest).gpt.notices = s.gpt.notices := rfl
@[simp] theorem State.popRequest_gpt_overflow (s : State) : (s.popRequest).gpt.overflow = s.gpt.overflow := rfl
@[simp] theorem State.popRequest_gpt_unanswered (s : State) : (s.popRequest).gpt.unanswered = s.gpt.unanswered := rfl
@[simp] theorem State.popRequest_gpt_dropped (s : State) : (s.popRequest).gpt.dropped = s.gpt.dropped := rfl
@[simp] theorem State.popRequest_gpt_fairness (s : State) : (s.popRequest).gpt.fairness = s.gpt.fairness := rfl
@[simp] theorem State.popRequest_gpt_lastReported (s : State) : (s.popRequest).gpt.lastReported = s.gpt.lastReported := rfl
@[simp] theorem State.popRequest_gpt_time (s : State) : (s.popRequest).gpt.time = s.gpt.time := rfl
@[simp] theorem State.popRequest_gpt_phase (s : State) : (s.popRequest).gpt.phase = s.gpt.phase := rfl
@[simp] theorem State.popRequest_gpt_lineOut (s : State) : (s.popRequest).gpt.lineOut = s.gpt.lineOut := rfl

/-! ### answer -/

@[simp] theorem State.answer_pending (s : State) (r : Request) (st : Status) (b : List Byte) : (s.answer r st b).pending = s.pending := rfl
@[simp] theorem State.answer_powered (s : State) (r : Request) (st : Status) (b : List Byte) : (s.answer r st b).powered = s.powered := rfl
@[simp] theorem State.answer_fpt (s : State) (r : Request) (st : Status) (b : List Byte) : (s.answer r st b).fpt = s.fpt := rfl
@[simp] theorem State.answer_scn (s : State) (r : Request) (st : Status) (b : List Byte) : (s.answer r st b).scn = s.scn := rfl
@[simp] theorem State.answer_cells (s : State) (r : Request) (st : Status) (b : List Byte) : (s.answer r st b).cells = s.cells := rfl
@[simp] theorem State.answer_decks (s : State) (r : Request) (st : Status) (b : List Byte) : (s.answer r st b).decks = s.decks := rfl
@[simp] theorem State.answer_axt (s : State) (r : Request) (st : Status) (b : List Byte) : (s.answer r st b).axt = s.axt := rfl
@[simp] theorem State.answer_slc (s : State) (r : Request) (st : Status) (b : List Byte) : (s.answer r st b).slc = s.slc := rfl
@[simp] theorem State.answer_classes (s : State) (r : Request) (st : Status) (b : List Byte) : (s.answer r st b).classes = s.classes := rfl
@[simp] theorem State.answer_tku (s : State) (r : Request) (st : Status) (b : List Byte) : (s.answer r st b).tku = s.tku := rfl
@[simp] theorem State.answer_aud (s : State) (r : Request) (st : Status) (b : List Byte) : (s.answer r st b).aud = s.aud := rfl
@[simp] theorem State.answer_cal (s : State) (r : Request) (st : Status) (b : List Byte) : (s.answer r st b).cal = s.cal := rfl
@[simp] theorem State.answer_mst (s : State) (r : Request) (st : Status) (b : List Byte) : (s.answer r st b).mst = s.mst := rfl
@[simp] theorem State.answer_settings (s : State) (r : Request) (st : Status) (b : List Byte) : (s.answer r st b).settings = s.settings := rfl
@[simp] theorem State.answer_gpt_inward (s : State) (r : Request) (st : Status) (b : List Byte) : (s.answer r st b).gpt.inward = s.gpt.inward := rfl
@[simp] theorem State.answer_gpt_requests (s : State) (r : Request) (st : Status) (b : List Byte) : (s.answer r st b).gpt.requests = s.gpt.requests := rfl
@[simp] theorem State.answer_gpt_notices (s : State) (r : Request) (st : Status) (b : List Byte) : (s.answer r st b).gpt.notices = s.gpt.notices := rfl
@[simp] theorem State.answer_gpt_overflow (s : State) (r : Request) (st : Status) (b : List Byte) : (s.answer r st b).gpt.overflow = s.gpt.overflow := rfl
@[simp] theorem State.answer_gpt_unanswered (s : State) (r : Request) (st : Status) (b : List Byte) : (s.answer r st b).gpt.unanswered = s.gpt.unanswered := rfl
@[simp] theorem State.answer_gpt_dropped (s : State) (r : Request) (st : Status) (b : List Byte) : (s.answer r st b).gpt.dropped = s.gpt.dropped := rfl
@[simp] theorem State.answer_gpt_fairness (s : State) (r : Request) (st : Status) (b : List Byte) : (s.answer r st b).gpt.fairness = s.gpt.fairness := rfl
@[simp] theorem State.answer_gpt_lastReported (s : State) (r : Request) (st : Status) (b : List Byte) : (s.answer r st b).gpt.lastReported = s.gpt.lastReported := rfl
@[simp] theorem State.answer_gpt_time (s : State) (r : Request) (st : Status) (b : List Byte) : (s.answer r st b).gpt.time = s.gpt.time := rfl
@[simp] theorem State.answer_gpt_phase (s : State) (r : Request) (st : Status) (b : List Byte) : (s.answer r st b).gpt.phase = s.gpt.phase := rfl
@[simp] theorem State.answer_gpt_lineOut (s : State) (r : Request) (st : Status) (b : List Byte) : (s.answer r st b).gpt.lineOut = s.gpt.lineOut := rfl

/-! ### openRun -/

@[simp] theorem State.openRun_pending (s : State) (ds : List Nat) : (s.openRun ds).pending = s.pending := rfl
@[simp] theorem State.openRun_powered (s : State) (ds : List Nat) : (s.openRun ds).powered = s.powered := rfl
@[simp] theorem State.openRun_fpt (s : State) (ds : List Nat) : (s.openRun ds).fpt = s.fpt := rfl
@[simp] theorem State.openRun_scn (s : State) (ds : List Nat) : (s.openRun ds).scn = s.scn := rfl
@[simp] theorem State.openRun_cells (s : State) (ds : List Nat) : (s.openRun ds).cells = s.cells := rfl
@[simp] theorem State.openRun_decks (s : State) (ds : List Nat) : (s.openRun ds).decks = s.decks := rfl
@[simp] theorem State.openRun_axt (s : State) (ds : List Nat) : (s.openRun ds).axt = s.axt := rfl
@[simp] theorem State.openRun_classes (s : State) (ds : List Nat) : (s.openRun ds).classes = s.classes := rfl
@[simp] theorem State.openRun_tku (s : State) (ds : List Nat) : (s.openRun ds).tku = s.tku := rfl
@[simp] theorem State.openRun_cal (s : State) (ds : List Nat) : (s.openRun ds).cal = s.cal := rfl
@[simp] theorem State.openRun_mst (s : State) (ds : List Nat) : (s.openRun ds).mst = s.mst := rfl
@[simp] theorem State.openRun_gpt (s : State) (ds : List Nat) : (s.openRun ds).gpt = s.gpt := rfl
@[simp] theorem State.openRun_settings (s : State) (ds : List Nat) : (s.openRun ds).settings = s.settings := rfl
@[simp] theorem State.openRun_slc_commitMark (s : State) (ds : List Nat) : (s.openRun ds).slc.commitMark = s.slc.commitMark := rfl
@[simp] theorem State.openRun_slc_slot0 (s : State) (ds : List Nat) : (s.openRun ds).slc.slot0 = s.slc.slot0 := rfl
@[simp] theorem State.openRun_slc_slot1 (s : State) (ds : List Nat) : (s.openRun ds).slc.slot1 = s.slc.slot1 := rfl
@[simp] theorem State.openRun_slc_permits (s : State) (ds : List Nat) : (s.openRun ds).slc.permits = s.slc.permits := rfl
@[simp] theorem State.openRun_slc_bars (s : State) (ds : List Nat) : (s.openRun ds).slc.bars = s.slc.bars := rfl
@[simp] theorem State.openRun_slc_waiting (s : State) (ds : List Nat) : (s.openRun ds).slc.waiting = s.slc.waiting := rfl
@[simp] theorem State.openRun_slc_waitingTimer (s : State) (ds : List Nat) : (s.openRun ds).slc.waitingTimer = s.slc.waitingTimer := rfl

/-! ### closeRun -/

@[simp] theorem State.closeRun_pending (s : State) : (s.closeRun).pending = s.pending := rfl
@[simp] theorem State.closeRun_powered (s : State) : (s.closeRun).powered = s.powered := rfl
@[simp] theorem State.closeRun_fpt (s : State) : (s.closeRun).fpt = s.fpt := rfl
@[simp] theorem State.closeRun_scn (s : State) : (s.closeRun).scn = s.scn := rfl
@[simp] theorem State.closeRun_cells (s : State) : (s.closeRun).cells = s.cells := rfl
@[simp] theorem State.closeRun_decks (s : State) : (s.closeRun).decks = s.decks := rfl
@[simp] theorem State.closeRun_axt (s : State) : (s.closeRun).axt = s.axt := rfl
@[simp] theorem State.closeRun_slc (s : State) : (s.closeRun).slc = s.slc := rfl
@[simp] theorem State.closeRun_classes (s : State) : (s.closeRun).classes = s.classes := rfl
@[simp] theorem State.closeRun_tku (s : State) : (s.closeRun).tku = s.tku := rfl
@[simp] theorem State.closeRun_cal (s : State) : (s.closeRun).cal = s.cal := rfl
@[simp] theorem State.closeRun_mst (s : State) : (s.closeRun).mst = s.mst := rfl
@[simp] theorem State.closeRun_gpt (s : State) : (s.closeRun).gpt = s.gpt := rfl
@[simp] theorem State.closeRun_settings (s : State) : (s.closeRun).settings = s.settings := rfl

/-! ### dropStrays -/

@[simp] theorem State.dropStrays_pending (s : State) : (s.dropStrays).pending = s.pending := rfl
@[simp] theorem State.dropStrays_powered (s : State) : (s.dropStrays).powered = s.powered := rfl
@[simp] theorem State.dropStrays_fpt (s : State) : (s.dropStrays).fpt = s.fpt := rfl
@[simp] theorem State.dropStrays_scn (s : State) : (s.dropStrays).scn = s.scn := rfl
@[simp] theorem State.dropStrays_cells (s : State) : (s.dropStrays).cells = s.cells := rfl
@[simp] theorem State.dropStrays_decks (s : State) : (s.dropStrays).decks = s.decks := rfl
@[simp] theorem State.dropStrays_slc (s : State) : (s.dropStrays).slc = s.slc := rfl
@[simp] theorem State.dropStrays_classes (s : State) : (s.dropStrays).classes = s.classes := rfl
@[simp] theorem State.dropStrays_tku (s : State) : (s.dropStrays).tku = s.tku := rfl
@[simp] theorem State.dropStrays_aud (s : State) : (s.dropStrays).aud = s.aud := rfl
@[simp] theorem State.dropStrays_cal (s : State) : (s.dropStrays).cal = s.cal := rfl
@[simp] theorem State.dropStrays_mst (s : State) : (s.dropStrays).mst = s.mst := rfl
@[simp] theorem State.dropStrays_gpt (s : State) : (s.dropStrays).gpt = s.gpt := rfl
@[simp] theorem State.dropStrays_settings (s : State) : (s.dropStrays).settings = s.settings := rfl

/-! ### What they write -/

@[simp] theorem State.modDeck_decks (s : State) (d : Nat) (f : Deck → Deck) :
    (s.modDeck d f).decks = s.decks.modify d f := rfl
@[simp] theorem State.modCell_cells (s : State) (i : Nat) (f : Cell → Cell) :
    (s.modCell i f).cells = s.cells.modify i f := rfl
@[simp] theorem State.setSlot_slot (s : State) (t : SlotId) (v : Slot) : (s.setSlot t v).slot t = v := by cases t <;> rfl
@[simp] theorem State.setSlot_other (s : State) (t : SlotId) (v : Slot) :
    (s.setSlot t v).slot (otherSlot t) = s.slot (otherSlot t) := by cases t <;> rfl
@[simp] theorem State.setClaim_claims (s : State) (d : Nat) (c : Claim) :
    (s.setClaim d c).slc.claims = s.slc.claims.set d c := rfl
@[simp] theorem State.setLine_line (s : State) (l : List Entry) : (s.setLine l).axt.line = l := rfl
@[simp] theorem State.popRequest_requests (s : State) : s.popRequest.gpt.requests = s.gpt.requests.tail := rfl
@[simp] theorem State.answer_responses (s : State) (r : Request) (st : Status) (b : List Byte) :
    (s.answer r st b).gpt.responses = s.gpt.responses ++ [{ tag := r.tag, kind := r.kind, status := st, body := b }] :=
  rfl

end Sys2Proof.Machine
end

