-- ==== Sys2Proof/Laws/Frames.lean ====
section
/-! SUPPORT. What ends an operation leaves everything but slots, deck records, signal marks and the notice queue alone
(Machine/Finish.lean), with the other shared operations' frames: one lemma per field per operation. -/

namespace Sys2Proof.Machine

/-- A fold leaves alone what each of its steps leaves alone. -/
theorem foldl_keeps {α β : Type} (g : State → α) (f : State → β → State) (h : ∀ s b, g (f s b) = g s) (l : List β)
    (s : State) : g (l.foldl f s) = g s := by
  induction l generalizing s with
  | nil => rfl
  | cons b l ih => rw [List.foldl_cons, ih, h]


/-! judgeMarks (R72) -/

@[simp] theorem State.judgeMarks_pending (s : State) (t : SlotId) : (s.judgeMarks t).pending = s.pending := by unfold State.judgeMarks; dsimp only; split <;> simp
@[simp] theorem State.judgeMarks_powered (s : State) (t : SlotId) : (s.judgeMarks t).powered = s.powered := by unfold State.judgeMarks; dsimp only; split <;> simp
@[simp] theorem State.judgeMarks_fpt (s : State) (t : SlotId) : (s.judgeMarks t).fpt = s.fpt := by unfold State.judgeMarks; dsimp only; split <;> simp
@[simp] theorem State.judgeMarks_scn (s : State) (t : SlotId) : (s.judgeMarks t).scn = s.scn := by unfold State.judgeMarks; dsimp only; split <;> simp
@[simp] theorem State.judgeMarks_cells (s : State) (t : SlotId) : (s.judgeMarks t).cells = s.cells := by unfold State.judgeMarks; dsimp only; split <;> simp
@[simp] theorem State.judgeMarks_decks (s : State) (t : SlotId) : (s.judgeMarks t).decks = s.decks := by unfold State.judgeMarks; dsimp only; split <;> simp
@[simp] theorem State.judgeMarks_axt (s : State) (t : SlotId) : (s.judgeMarks t).axt = s.axt := by unfold State.judgeMarks; dsimp only; split <;> simp
@[simp] theorem State.judgeMarks_classes (s : State) (t : SlotId) : (s.judgeMarks t).classes = s.classes := by unfold State.judgeMarks; dsimp only; split <;> simp
@[simp] theorem State.judgeMarks_tku (s : State) (t : SlotId) : (s.judgeMarks t).tku = s.tku := by unfold State.judgeMarks; dsimp only; split <;> simp
@[simp] theorem State.judgeMarks_aud (s : State) (t : SlotId) : (s.judgeMarks t).aud = s.aud := by unfold State.judgeMarks; dsimp only; split <;> simp
@[simp] theorem State.judgeMarks_cal (s : State) (t : SlotId) : (s.judgeMarks t).cal = s.cal := by unfold State.judgeMarks; dsimp only; split <;> simp
@[simp] theorem State.judgeMarks_mst (s : State) (t : SlotId) : (s.judgeMarks t).mst = s.mst := by unfold State.judgeMarks; dsimp only; split <;> simp
@[simp] theorem State.judgeMarks_settings (s : State) (t : SlotId) : (s.judgeMarks t).settings = s.settings := by unfold State.judgeMarks; dsimp only; split <;> simp
@[simp] theorem State.judgeMarks_gpt_inward (s : State) (t : SlotId) : (s.judgeMarks t).gpt.inward = s.gpt.inward := by unfold State.judgeMarks; dsimp only; split <;> simp
@[simp] theorem State.judgeMarks_gpt_requests (s : State) (t : SlotId) : (s.judgeMarks t).gpt.requests = s.gpt.requests := by unfold State.judgeMarks; dsimp only; split <;> simp
@[simp] theorem State.judgeMarks_gpt_responses (s : State) (t : SlotId) : (s.judgeMarks t).gpt.responses = s.gpt.responses := by unfold State.judgeMarks; dsimp only; split <;> simp
@[simp] theorem State.judgeMarks_gpt_unanswered (s : State) (t : SlotId) : (s.judgeMarks t).gpt.unanswered = s.gpt.unanswered := by unfold State.judgeMarks; dsimp only; split <;> simp
@[simp] theorem State.judgeMarks_gpt_fairness (s : State) (t : SlotId) : (s.judgeMarks t).gpt.fairness = s.gpt.fairness := by unfold State.judgeMarks; dsimp only; split <;> simp
@[simp] theorem State.judgeMarks_gpt_lastReported (s : State) (t : SlotId) : (s.judgeMarks t).gpt.lastReported = s.gpt.lastReported := by unfold State.judgeMarks; dsimp only; split <;> simp
@[simp] theorem State.judgeMarks_gpt_time (s : State) (t : SlotId) : (s.judgeMarks t).gpt.time = s.gpt.time := by unfold State.judgeMarks; dsimp only; split <;> simp
@[simp] theorem State.judgeMarks_gpt_phase (s : State) (t : SlotId) : (s.judgeMarks t).gpt.phase = s.gpt.phase := by unfold State.judgeMarks; dsimp only; split <;> simp
@[simp] theorem State.judgeMarks_gpt_lineOut (s : State) (t : SlotId) : (s.judgeMarks t).gpt.lineOut = s.gpt.lineOut := by unfold State.judgeMarks; dsimp only; split <;> simp
@[simp] theorem State.judgeMarks_slc_claims (s : State) (t : SlotId) : (s.judgeMarks t).slc.claims = s.slc.claims := by unfold State.judgeMarks; dsimp only; split <;> simp
@[simp] theorem State.judgeMarks_slc_commitMark (s : State) (t : SlotId) : (s.judgeMarks t).slc.commitMark = s.slc.commitMark := by unfold State.judgeMarks; dsimp only; split <;> simp
@[simp] theorem State.judgeMarks_slc_permits (s : State) (t : SlotId) : (s.judgeMarks t).slc.permits = s.slc.permits := by unfold State.judgeMarks; dsimp only; split <;> simp
@[simp] theorem State.judgeMarks_slc_bars (s : State) (t : SlotId) : (s.judgeMarks t).slc.bars = s.slc.bars := by unfold State.judgeMarks; dsimp only; split <;> simp
@[simp] theorem State.judgeMarks_slc_waiting (s : State) (t : SlotId) : (s.judgeMarks t).slc.waiting = s.slc.waiting := by unfold State.judgeMarks; dsimp only; split <;> simp
@[simp] theorem State.judgeMarks_slc_waitingTimer (s : State) (t : SlotId) : (s.judgeMarks t).slc.waitingTimer = s.slc.waitingTimer := by unfold State.judgeMarks; dsimp only; split <;> simp

/-! refreshCheck (R92, R102) -/

@[simp] theorem State.refreshCheck_pending (s : State) (t : SlotId) : (s.refreshCheck t).pending = s.pending := by simp [State.refreshCheck]
@[simp] theorem State.refreshCheck_powered (s : State) (t : SlotId) : (s.refreshCheck t).powered = s.powered := by simp [State.refreshCheck]
@[simp] theorem State.refreshCheck_fpt (s : State) (t : SlotId) : (s.refreshCheck t).fpt = s.fpt := by simp [State.refreshCheck]
@[simp] theorem State.refreshCheck_scn (s : State) (t : SlotId) : (s.refreshCheck t).scn = s.scn := by simp [State.refreshCheck]
@[simp] theorem State.refreshCheck_cells (s : State) (t : SlotId) : (s.refreshCheck t).cells = s.cells := by simp [State.refreshCheck]
@[simp] theorem State.refreshCheck_decks (s : State) (t : SlotId) : (s.refreshCheck t).decks = s.decks := by simp [State.refreshCheck]
@[simp] theorem State.refreshCheck_axt (s : State) (t : SlotId) : (s.refreshCheck t).axt = s.axt := by simp [State.refreshCheck]
@[simp] theorem State.refreshCheck_classes (s : State) (t : SlotId) : (s.refreshCheck t).classes = s.classes := by simp [State.refreshCheck]
@[simp] theorem State.refreshCheck_tku (s : State) (t : SlotId) : (s.refreshCheck t).tku = s.tku := by simp [State.refreshCheck]
@[simp] theorem State.refreshCheck_aud (s : State) (t : SlotId) : (s.refreshCheck t).aud = s.aud := by simp [State.refreshCheck]
@[simp] theorem State.refreshCheck_cal (s : State) (t : SlotId) : (s.refreshCheck t).cal = s.cal := by simp [State.refreshCheck]
@[simp] theorem State.refreshCheck_mst (s : State) (t : SlotId) : (s.refreshCheck t).mst = s.mst := by simp [State.refreshCheck]
@[simp] theorem State.refreshCheck_gpt (s : State) (t : SlotId) : (s.refreshCheck t).gpt = s.gpt := by simp [State.refreshCheck]
@[simp] theorem State.refreshCheck_settings (s : State) (t : SlotId) : (s.refreshCheck t).settings = s.settings := by simp [State.refreshCheck]
@[simp] theorem State.refreshCheck_slc_claims (s : State) (t : SlotId) : (s.refreshCheck t).slc.claims = s.slc.claims := by simp [State.refreshCheck]
@[simp] theorem State.refreshCheck_slc_commitMark (s : State) (t : SlotId) : (s.refreshCheck t).slc.commitMark = s.slc.commitMark := by simp [State.refreshCheck]
@[simp] theorem State.refreshCheck_slc_permits (s : State) (t : SlotId) : (s.refreshCheck t).slc.permits = s.slc.permits := by simp [State.refreshCheck]
@[simp] theorem State.refreshCheck_slc_bars (s : State) (t : SlotId) : (s.refreshCheck t).slc.bars = s.slc.bars := by simp [State.refreshCheck]
@[simp] theorem State.refreshCheck_slc_waiting (s : State) (t : SlotId) : (s.refreshCheck t).slc.waiting = s.slc.waiting := by simp [State.refreshCheck]
@[simp] theorem State.refreshCheck_slc_waitingTimer (s : State) (t : SlotId) : (s.refreshCheck t).slc.waitingTimer = s.slc.waitingTimer := by simp [State.refreshCheck]

/-! judgeCheck (R92) -/

@[simp] theorem State.judgeCheck_pending (s0 s : State) (t : SlotId) : (State.judgeCheck s0 t s).pending = s.pending := by unfold State.judgeCheck; dsimp only; (repeat' split) <;> simp
@[simp] theorem State.judgeCheck_powered (s0 s : State) (t : SlotId) : (State.judgeCheck s0 t s).powered = s.powered := by unfold State.judgeCheck; dsimp only; (repeat' split) <;> simp
@[simp] theorem State.judgeCheck_fpt (s0 s : State) (t : SlotId) : (State.judgeCheck s0 t s).fpt = s.fpt := by unfold State.judgeCheck; dsimp only; (repeat' split) <;> simp
@[simp] theorem State.judgeCheck_scn (s0 s : State) (t : SlotId) : (State.judgeCheck s0 t s).scn = s.scn := by unfold State.judgeCheck; dsimp only; (repeat' split) <;> simp
@[simp] theorem State.judgeCheck_cells (s0 s : State) (t : SlotId) : (State.judgeCheck s0 t s).cells = s.cells := by unfold State.judgeCheck; dsimp only; (repeat' split) <;> simp
@[simp] theorem State.judgeCheck_decks (s0 s : State) (t : SlotId) : (State.judgeCheck s0 t s).decks = s.decks := by unfold State.judgeCheck; dsimp only; (repeat' split) <;> simp
@[simp] theorem State.judgeCheck_axt (s0 s : State) (t : SlotId) : (State.judgeCheck s0 t s).axt = s.axt := by unfold State.judgeCheck; dsimp only; (repeat' split) <;> simp
@[simp] theorem State.judgeCheck_classes (s0 s : State) (t : SlotId) : (State.judgeCheck s0 t s).classes = s.classes := by unfold State.judgeCheck; dsimp only; (repeat' split) <;> simp
@[simp] theorem State.judgeCheck_tku (s0 s : State) (t : SlotId) : (State.judgeCheck s0 t s).tku = s.tku := by unfold State.judgeCheck; dsimp only; (repeat' split) <;> simp
@[simp] theorem State.judgeCheck_aud (s0 s : State) (t : SlotId) : (State.judgeCheck s0 t s).aud = s.aud := by unfold State.judgeCheck; dsimp only; (repeat' split) <;> simp
@[simp] theorem State.judgeCheck_cal (s0 s : State) (t : SlotId) : (State.judgeCheck s0 t s).cal = s.cal := by unfold State.judgeCheck; dsimp only; (repeat' split) <;> simp
@[simp] theorem State.judgeCheck_mst (s0 s : State) (t : SlotId) : (State.judgeCheck s0 t s).mst = s.mst := by unfold State.judgeCheck; dsimp only; (repeat' split) <;> simp
@[simp] theorem State.judgeCheck_gpt (s0 s : State) (t : SlotId) : (State.judgeCheck s0 t s).gpt = s.gpt := by unfold State.judgeCheck; dsimp only; (repeat' split) <;> simp
@[simp] theorem State.judgeCheck_settings (s0 s : State) (t : SlotId) : (State.judgeCheck s0 t s).settings = s.settings := by unfold State.judgeCheck; dsimp only; (repeat' split) <;> simp
@[simp] theorem State.judgeCheck_slc_claims (s0 s : State) (t : SlotId) : (State.judgeCheck s0 t s).slc.claims = s.slc.claims := by unfold State.judgeCheck; dsimp only; (repeat' split) <;> simp
@[simp] theorem State.judgeCheck_slc_commitMark (s0 s : State) (t : SlotId) : (State.judgeCheck s0 t s).slc.commitMark = s.slc.commitMark := by unfold State.judgeCheck; dsimp only; (repeat' split) <;> simp
@[simp] theorem State.judgeCheck_slc_permits (s0 s : State) (t : SlotId) : (State.judgeCheck s0 t s).slc.permits = s.slc.permits := by unfold State.judgeCheck; dsimp only; (repeat' split) <;> simp
@[simp] theorem State.judgeCheck_slc_bars (s0 s : State) (t : SlotId) : (State.judgeCheck s0 t s).slc.bars = s.slc.bars := by unfold State.judgeCheck; dsimp only; (repeat' split) <;> simp
@[simp] theorem State.judgeCheck_slc_waiting (s0 s : State) (t : SlotId) : (State.judgeCheck s0 t s).slc.waiting = s.slc.waiting := by unfold State.judgeCheck; dsimp only; (repeat' split) <;> simp
@[simp] theorem State.judgeCheck_slc_waitingTimer (s0 s : State) (t : SlotId) : (State.judgeCheck s0 t s).slc.waitingTimer = s.slc.waitingTimer := by unfold State.judgeCheck; dsimp only; (repeat' split) <;> simp

/-! judgeSettle (R35) -/

@[simp] theorem State.judgeSettle_pending (s : State) (d : Nat) : (s.judgeSettle d).pending = s.pending := by simp [State.judgeSettle]
@[simp] theorem State.judgeSettle_powered (s : State) (d : Nat) : (s.judgeSettle d).powered = s.powered := by simp [State.judgeSettle]
@[simp] theorem State.judgeSettle_fpt (s : State) (d : Nat) : (s.judgeSettle d).fpt = s.fpt := by simp [State.judgeSettle]
@[simp] theorem State.judgeSettle_scn (s : State) (d : Nat) : (s.judgeSettle d).scn = s.scn := by simp [State.judgeSettle]
@[simp] theorem State.judgeSettle_cells (s : State) (d : Nat) : (s.judgeSettle d).cells = s.cells := by simp [State.judgeSettle]
@[simp] theorem State.judgeSettle_axt (s : State) (d : Nat) : (s.judgeSettle d).axt = s.axt := by simp [State.judgeSettle]
@[simp] theorem State.judgeSettle_slc (s : State) (d : Nat) : (s.judgeSettle d).slc = s.slc := by simp [State.judgeSettle]
@[simp] theorem State.judgeSettle_classes (s : State) (d : Nat) : (s.judgeSettle d).classes = s.classes := by simp [State.judgeSettle]
@[simp] theorem State.judgeSettle_tku (s : State) (d : Nat) : (s.judgeSettle d).tku = s.tku := by simp [State.judgeSettle]
@[simp] theorem State.judgeSettle_aud (s : State) (d : Nat) : (s.judgeSettle d).aud = s.aud := by simp [State.judgeSettle]
@[simp] theorem State.judgeSettle_cal (s : State) (d : Nat) : (s.judgeSettle d).cal = s.cal := by simp [State.judgeSettle]
@[simp] theorem State.judgeSettle_mst (s : State) (d : Nat) : (s.judgeSettle d).mst = s.mst := by simp [State.judgeSettle]
@[simp] theorem State.judgeSettle_gpt (s : State) (d : Nat) : (s.judgeSettle d).gpt = s.gpt := by simp [State.judgeSettle]
@[simp] theorem State.judgeSettle_settings (s : State) (d : Nat) : (s.judgeSettle d).settings = s.settings := by simp [State.judgeSettle]

/-! judgeReport (R43, R44) -/

@[simp] theorem State.judgeReport_pending (s0 s : State) (d : Nat) : (State.judgeReport s0 s d).pending = s.pending := by unfold State.judgeReport; (repeat' split) <;> simp
@[simp] theorem State.judgeReport_powered (s0 s : State) (d : Nat) : (State.judgeReport s0 s d).powered = s.powered := by unfold State.judgeReport; (repeat' split) <;> simp
@[simp] theorem State.judgeReport_fpt (s0 s : State) (d : Nat) : (State.judgeReport s0 s d).fpt = s.fpt := by unfold State.judgeReport; (repeat' split) <;> simp
@[simp] theorem State.judgeReport_scn (s0 s : State) (d : Nat) : (State.judgeReport s0 s d).scn = s.scn := by unfold State.judgeReport; (repeat' split) <;> simp
@[simp] theorem State.judgeReport_cells (s0 s : State) (d : Nat) : (State.judgeReport s0 s d).cells = s.cells := by unfold State.judgeReport; (repeat' split) <;> simp
@[simp] theorem State.judgeReport_axt (s0 s : State) (d : Nat) : (State.judgeReport s0 s d).axt = s.axt := by unfold State.judgeReport; (repeat' split) <;> simp
@[simp] theorem State.judgeReport_slc (s0 s : State) (d : Nat) : (State.judgeReport s0 s d).slc = s.slc := by unfold State.judgeReport; (repeat' split) <;> simp
@[simp] theorem State.judgeReport_classes (s0 s : State) (d : Nat) : (State.judgeReport s0 s d).classes = s.classes := by unfold State.judgeReport; (repeat' split) <;> simp
@[simp] theorem State.judgeReport_tku (s0 s : State) (d : Nat) : (State.judgeReport s0 s d).tku = s.tku := by unfold State.judgeReport; (repeat' split) <;> simp
@[simp] theorem State.judgeReport_aud (s0 s : State) (d : Nat) : (State.judgeReport s0 s d).aud = s.aud := by unfold State.judgeReport; (repeat' split) <;> simp
@[simp] theorem State.judgeReport_cal (s0 s : State) (d : Nat) : (State.judgeReport s0 s d).cal = s.cal := by unfold State.judgeReport; (repeat' split) <;> simp
@[simp] theorem State.judgeReport_mst (s0 s : State) (d : Nat) : (State.judgeReport s0 s d).mst = s.mst := by unfold State.judgeReport; (repeat' split) <;> simp
@[simp] theorem State.judgeReport_gpt (s0 s : State) (d : Nat) : (State.judgeReport s0 s d).gpt = s.gpt := by unfold State.judgeReport; (repeat' split) <;> simp
@[simp] theorem State.judgeReport_settings (s0 s : State) (d : Nat) : (State.judgeReport s0 s d).settings = s.settings := by unfold State.judgeReport; (repeat' split) <;> simp

/-! judgeDeck -/

@[simp] theorem State.judgeDeck_pending (s0 s : State) (d : Nat) : (State.judgeDeck s0 s d).pending = s.pending := by unfold State.judgeDeck; dsimp only; split <;> simp
@[simp] theorem State.judgeDeck_powered (s0 s : State) (d : Nat) : (State.judgeDeck s0 s d).powered = s.powered := by unfold State.judgeDeck; dsimp only; split <;> simp
@[simp] theorem State.judgeDeck_fpt (s0 s : State) (d : Nat) : (State.judgeDeck s0 s d).fpt = s.fpt := by unfold State.judgeDeck; dsimp only; split <;> simp
@[simp] theorem State.judgeDeck_scn (s0 s : State) (d : Nat) : (State.judgeDeck s0 s d).scn = s.scn := by unfold State.judgeDeck; dsimp only; split <;> simp
@[simp] theorem State.judgeDeck_cells (s0 s : State) (d : Nat) : (State.judgeDeck s0 s d).cells = s.cells := by unfold State.judgeDeck; dsimp only; split <;> simp
@[simp] theorem State.judgeDeck_axt (s0 s : State) (d : Nat) : (State.judgeDeck s0 s d).axt = s.axt := by unfold State.judgeDeck; dsimp only; split <;> simp
@[simp] theorem State.judgeDeck_slc (s0 s : State) (d : Nat) : (State.judgeDeck s0 s d).slc = s.slc := by unfold State.judgeDeck; dsimp only; split <;> simp
@[simp] theorem State.judgeDeck_classes (s0 s : State) (d : Nat) : (State.judgeDeck s0 s d).classes = s.classes := by unfold State.judgeDeck; dsimp only; split <;> simp
@[simp] theorem State.judgeDeck_tku (s0 s : State) (d : Nat) : (State.judgeDeck s0 s d).tku = s.tku := by unfold State.judgeDeck; dsimp only; split <;> simp
@[simp] theorem State.judgeDeck_aud (s0 s : State) (d : Nat) : (State.judgeDeck s0 s d).aud = s.aud := by unfold State.judgeDeck; dsimp only; split <;> simp
@[simp] theorem State.judgeDeck_cal (s0 s : State) (d : Nat) : (State.judgeDeck s0 s d).cal = s.cal := by unfold State.judgeDeck; dsimp only; split <;> simp
@[simp] theorem State.judgeDeck_mst (s0 s : State) (d : Nat) : (State.judgeDeck s0 s d).mst = s.mst := by unfold State.judgeDeck; dsimp only; split <;> simp
@[simp] theorem State.judgeDeck_gpt (s0 s : State) (d : Nat) : (State.judgeDeck s0 s d).gpt = s.gpt := by unfold State.judgeDeck; dsimp only; split <;> simp
@[simp] theorem State.judgeDeck_settings (s0 s : State) (d : Nat) : (State.judgeDeck s0 s d).settings = s.settings := by unfold State.judgeDeck; dsimp only; split <;> simp

/-! judgeLanes (R87) -/

@[simp] theorem State.judgeLanes_pending (s : State) : (s.judgeLanes).pending = s.pending := rfl
@[simp] theorem State.judgeLanes_powered (s : State) : (s.judgeLanes).powered = s.powered := rfl
@[simp] theorem State.judgeLanes_scn (s : State) : (s.judgeLanes).scn = s.scn := rfl
@[simp] theorem State.judgeLanes_cells (s : State) : (s.judgeLanes).cells = s.cells := rfl
@[simp] theorem State.judgeLanes_decks (s : State) : (s.judgeLanes).decks = s.decks := rfl
@[simp] theorem State.judgeLanes_axt (s : State) : (s.judgeLanes).axt = s.axt := rfl
@[simp] theorem State.judgeLanes_slc (s : State) : (s.judgeLanes).slc = s.slc := rfl
@[simp] theorem State.judgeLanes_classes (s : State) : (s.judgeLanes).classes = s.classes := rfl
@[simp] theorem State.judgeLanes_tku (s : State) : (s.judgeLanes).tku = s.tku := rfl
@[simp] theorem State.judgeLanes_aud (s : State) : (s.judgeLanes).aud = s.aud := rfl
@[simp] theorem State.judgeLanes_cal (s : State) : (s.judgeLanes).cal = s.cal := rfl
@[simp] theorem State.judgeLanes_mst (s : State) : (s.judgeLanes).mst = s.mst := rfl
@[simp] theorem State.judgeLanes_gpt (s : State) : (s.judgeLanes).gpt = s.gpt := rfl
@[simp] theorem State.judgeLanes_settings (s : State) : (s.judgeLanes).settings = s.settings := rfl

/-! finish -/

@[simp] theorem State.finish_pending (s0 s : State) : (State.finish s0 s).pending = s.pending := by
  unfold State.finish; dsimp only
  simp [foldl_keeps (fun s => s.pending) (State.judgeDeck s0)]
@[simp] theorem State.finish_powered (s0 s : State) : (State.finish s0 s).powered = s.powered := by
  unfold State.finish; dsimp only
  simp [foldl_keeps (fun s => s.powered) (State.judgeDeck s0)]
@[simp] theorem State.finish_scn (s0 s : State) : (State.finish s0 s).scn = s.scn := by
  unfold State.finish; dsimp only
  simp [foldl_keeps (fun s => s.scn) (State.judgeDeck s0)]
@[simp] theorem State.finish_cells (s0 s : State) : (State.finish s0 s).cells = s.cells := by
  unfold State.finish; dsimp only
  simp [foldl_keeps (fun s => s.cells) (State.judgeDeck s0)]
@[simp] theorem State.finish_axt (s0 s : State) : (State.finish s0 s).axt = s.axt := by
  unfold State.finish; dsimp only
  simp [foldl_keeps (fun s => s.axt) (State.judgeDeck s0)]
@[simp] theorem State.finish_classes (s0 s : State) : (State.finish s0 s).classes = s.classes := by
  unfold State.finish; dsimp only
  simp [foldl_keeps (fun s => s.classes) (State.judgeDeck s0)]
@[simp] theorem State.finish_tku (s0 s : State) : (State.finish s0 s).tku = s.tku := by
  unfold State.finish; dsimp only
  simp [foldl_keeps (fun s => s.tku) (State.judgeDeck s0)]
@[simp] theorem State.finish_aud (s0 s : State) : (State.finish s0 s).aud = s.aud := by
  unfold State.finish; dsimp only
  simp [foldl_keeps (fun s => s.aud) (State.judgeDeck s0)]
@[simp] theorem State.finish_cal (s0 s : State) : (State.finish s0 s).cal = s.cal := by
  unfold State.finish; dsimp only
  simp [foldl_keeps (fun s => s.cal) (State.judgeDeck s0)]
@[simp] theorem State.finish_mst (s0 s : State) : (State.finish s0 s).mst = s.mst := by
  unfold State.finish; dsimp only
  simp [foldl_keeps (fun s => s.mst) (State.judgeDeck s0)]
@[simp] theorem State.finish_settings (s0 s : State) : (State.finish s0 s).settings = s.settings := by
  unfold State.finish; dsimp only
  simp [foldl_keeps (fun s => s.settings) (State.judgeDeck s0)]
@[simp] theorem State.finish_gpt_inward (s0 s : State) : (State.finish s0 s).gpt.inward = s.gpt.inward := by
  unfold State.finish; dsimp only
  simp [foldl_keeps (fun s => s.gpt.inward) (State.judgeDeck s0)]
@[simp] theorem State.finish_gpt_requests (s0 s : State) : (State.finish s0 s).gpt.requests = s.gpt.requests := by
  unfold State.finish; dsimp only
  simp [foldl_keeps (fun s => s.gpt.requests) (State.judgeDeck s0)]
@[simp] theorem State.finish_gpt_responses (s0 s : State) : (State.finish s0 s).gpt.responses = s.gpt.responses := by
  unfold State.finish; dsimp only
  simp [foldl_keeps (fun s => s.gpt.responses) (State.judgeDeck s0)]
@[simp] theorem State.finish_gpt_unanswered (s0 s : State) : (State.finish s0 s).gpt.unanswered = s.gpt.unanswered := by
  unfold State.finish; dsimp only
  simp [foldl_keeps (fun s => s.gpt.unanswered) (State.judgeDeck s0)]
@[simp] theorem State.finish_gpt_fairness (s0 s : State) : (State.finish s0 s).gpt.fairness = s.gpt.fairness := by
  unfold State.finish; dsimp only
  simp [foldl_keeps (fun s => s.gpt.fairness) (State.judgeDeck s0)]
@[simp] theorem State.finish_gpt_lastReported (s0 s : State) : (State.finish s0 s).gpt.lastReported = s.gpt.lastReported := by
  unfold State.finish; dsimp only
  simp [foldl_keeps (fun s => s.gpt.lastReported) (State.judgeDeck s0)]
@[simp] theorem State.finish_gpt_time (s0 s : State) : (State.finish s0 s).gpt.time = s.gpt.time := by
  unfold State.finish; dsimp only
  simp [foldl_keeps (fun s => s.gpt.time) (State.judgeDeck s0)]
@[simp] theorem State.finish_gpt_phase (s0 s : State) : (State.finish s0 s).gpt.phase = s.gpt.phase := by
  unfold State.finish; dsimp only
  simp [foldl_keeps (fun s => s.gpt.phase) (State.judgeDeck s0)]
@[simp] theorem State.finish_gpt_lineOut (s0 s : State) : (State.finish s0 s).gpt.lineOut = s.gpt.lineOut := by
  unfold State.finish; dsimp only
  simp [foldl_keeps (fun s => s.gpt.lineOut) (State.judgeDeck s0)]
@[simp] theorem State.finish_slc_claims (s0 s : State) : (State.finish s0 s).slc.claims = s.slc.claims := by
  unfold State.finish; dsimp only
  simp [foldl_keeps (fun s => s.slc.claims) (State.judgeDeck s0)]
@[simp] theorem State.finish_slc_commitMark (s0 s : State) : (State.finish s0 s).slc.commitMark = s.slc.commitMark := by
  unfold State.finish; dsimp only
  simp [foldl_keeps (fun s => s.slc.commitMark) (State.judgeDeck s0)]
@[simp] theorem State.finish_slc_permits (s0 s : State) : (State.finish s0 s).slc.permits = s.slc.permits := by
  unfold State.finish; dsimp only
  simp [foldl_keeps (fun s => s.slc.permits) (State.judgeDeck s0)]
@[simp] theorem State.finish_slc_bars (s0 s : State) : (State.finish s0 s).slc.bars = s.slc.bars := by
  unfold State.finish; dsimp only
  simp [foldl_keeps (fun s => s.slc.bars) (State.judgeDeck s0)]
@[simp] theorem State.finish_slc_waiting (s0 s : State) : (State.finish s0 s).slc.waiting = s.slc.waiting := by
  unfold State.finish; dsimp only
  simp [foldl_keeps (fun s => s.slc.waiting) (State.judgeDeck s0)]
@[simp] theorem State.finish_slc_waitingTimer (s0 s : State) : (State.finish s0 s).slc.waitingTimer = s.slc.waitingTimer := by
  unfold State.finish; dsimp only
  simp [foldl_keeps (fun s => s.slc.waitingTimer) (State.judgeDeck s0)]

/-! beginNext (R133, R134) -/

@[simp] theorem State.beginNext_pending (s : State) : (s.beginNext).pending = s.pending := by unfold State.beginNext; split <;> rfl
@[simp] theorem State.beginNext_powered (s : State) : (s.beginNext).powered = s.powered := by unfold State.beginNext; split <;> rfl
@[simp] theorem State.beginNext_fpt (s : State) : (s.beginNext).fpt = s.fpt := by unfold State.beginNext; split <;> rfl
@[simp] theorem State.beginNext_scn (s : State) : (s.beginNext).scn = s.scn := by unfold State.beginNext; split <;> rfl
@[simp] theorem State.beginNext_cells (s : State) : (s.beginNext).cells = s.cells := by unfold State.beginNext; split <;> rfl
@[simp] theorem State.beginNext_decks (s : State) : (s.beginNext).decks = s.decks := by unfold State.beginNext; split <;> rfl
@[simp] theorem State.beginNext_axt (s : State) : (s.beginNext).axt = s.axt := by unfold State.beginNext; split <;> rfl
@[simp] theorem State.beginNext_slc (s : State) : (s.beginNext).slc = s.slc := by unfold State.beginNext; split <;> rfl
@[simp] theorem State.beginNext_classes (s : State) : (s.beginNext).classes = s.classes := by unfold State.beginNext; split <;> rfl
@[simp] theorem State.beginNext_tku (s : State) : (s.beginNext).tku = s.tku := by unfold State.beginNext; split <;> rfl
@[simp] theorem State.beginNext_aud (s : State) : (s.beginNext).aud = s.aud := by unfold State.beginNext; split <;> rfl
@[simp] theorem State.beginNext_cal (s : State) : (s.beginNext).cal = s.cal := by unfold State.beginNext; split <;> rfl
@[simp] theorem State.beginNext_gpt (s : State) : (s.beginNext).gpt = s.gpt := by unfold State.beginNext; split <;> rfl
@[simp] theorem State.beginNext_settings (s : State) : (s.beginNext).settings = s.settings := by unfold State.beginNext; split <;> rfl

/-! submit (R133) -/

@[simp] theorem State.submit_pending (s : State) (j : Job) : (s.submit j).pending = s.pending := by simp [State.submit]
@[simp] theorem State.submit_powered (s : State) (j : Job) : (s.submit j).powered = s.powered := by simp [State.submit]
@[simp] theorem State.submit_fpt (s : State) (j : Job) : (s.submit j).fpt = s.fpt := by simp [State.submit]
@[simp] theorem State.submit_scn (s : State) (j : Job) : (s.submit j).scn = s.scn := by simp [State.submit]
@[simp] theorem State.submit_cells (s : State) (j : Job) : (s.submit j).cells = s.cells := by simp [State.submit]
@[simp] theorem State.submit_decks (s : State) (j : Job) : (s.submit j).decks = s.decks := by simp [State.submit]
@[simp] theorem State.submit_axt (s : State) (j : Job) : (s.submit j).axt = s.axt := by simp [State.submit]
@[simp] theorem State.submit_slc (s : State) (j : Job) : (s.submit j).slc = s.slc := by simp [State.submit]
@[simp] theorem State.submit_classes (s : State) (j : Job) : (s.submit j).classes = s.classes := by simp [State.submit]
@[simp] theorem State.submit_tku (s : State) (j : Job) : (s.submit j).tku = s.tku := by simp [State.submit]
@[simp] theorem State.submit_aud (s : State) (j : Job) : (s.submit j).aud = s.aud := by simp [State.submit]
@[simp] theorem State.submit_cal (s : State) (j : Job) : (s.submit j).cal = s.cal := by simp [State.submit]
@[simp] theorem State.submit_gpt (s : State) (j : Job) : (s.submit j).gpt = s.gpt := by simp [State.submit]
@[simp] theorem State.submit_settings (s : State) (j : Job) : (s.submit j).settings = s.settings := by simp [State.submit]

/-! offer (R75) -/

@[simp] theorem State.offer_pending (n : Nat) (ts : List SlotId) (s : State) : (State.offer n ts s).pending = s.pending := by
  induction n generalizing s with
  | zero => rfl
  | succ n ih => unfold State.offer; split <;> simp [*]
@[simp] theorem State.offer_powered (n : Nat) (ts : List SlotId) (s : State) : (State.offer n ts s).powered = s.powered := by
  induction n generalizing s with
  | zero => rfl
  | succ n ih => unfold State.offer; split <;> simp [*]
@[simp] theorem State.offer_fpt (n : Nat) (ts : List SlotId) (s : State) : (State.offer n ts s).fpt = s.fpt := by
  induction n generalizing s with
  | zero => rfl
  | succ n ih => unfold State.offer; split <;> simp [*]
@[simp] theorem State.offer_scn (n : Nat) (ts : List SlotId) (s : State) : (State.offer n ts s).scn = s.scn := by
  induction n generalizing s with
  | zero => rfl
  | succ n ih => unfold State.offer; split <;> simp [*]
@[simp] theorem State.offer_cells (n : Nat) (ts : List SlotId) (s : State) : (State.offer n ts s).cells = s.cells := by
  induction n generalizing s with
  | zero => rfl
  | succ n ih => unfold State.offer; split <;> simp [*]
@[simp] theorem State.offer_decks (n : Nat) (ts : List SlotId) (s : State) : (State.offer n ts s).decks = s.decks := by
  induction n generalizing s with
  | zero => rfl
  | succ n ih => unfold State.offer; split <;> simp [*]
@[simp] theorem State.offer_axt (n : Nat) (ts : List SlotId) (s : State) : (State.offer n ts s).axt = s.axt := by
  induction n generalizing s with
  | zero => rfl
  | succ n ih => unfold State.offer; split <;> simp [*]
@[simp] theorem State.offer_classes (n : Nat) (ts : List SlotId) (s : State) : (State.offer n ts s).classes = s.classes := by
  induction n generalizing s with
  | zero => rfl
  | succ n ih => unfold State.offer; split <;> simp [*]
@[simp] theorem State.offer_tku (n : Nat) (ts : List SlotId) (s : State) : (State.offer n ts s).tku = s.tku := by
  induction n generalizing s with
  | zero => rfl
  | succ n ih => unfold State.offer; split <;> simp [*]
@[simp] theorem State.offer_aud (n : Nat) (ts : List SlotId) (s : State) : (State.offer n ts s).aud = s.aud := by
  induction n generalizing s with
  | zero => rfl
  | succ n ih => unfold State.offer; split <;> simp [*]
@[simp] theorem State.offer_cal (n : Nat) (ts : List SlotId) (s : State) : (State.offer n ts s).cal = s.cal := by
  induction n generalizing s with
  | zero => rfl
  | succ n ih => unfold State.offer; split <;> simp [*]
@[simp] theorem State.offer_mst (n : Nat) (ts : List SlotId) (s : State) : (State.offer n ts s).mst = s.mst := by
  induction n generalizing s with
  | zero => rfl
  | succ n ih => unfold State.offer; split <;> simp [*]
@[simp] theorem State.offer_gpt (n : Nat) (ts : List SlotId) (s : State) : (State.offer n ts s).gpt = s.gpt := by
  induction n generalizing s with
  | zero => rfl
  | succ n ih => unfold State.offer; split <;> simp [*]
@[simp] theorem State.offer_settings (n : Nat) (ts : List SlotId) (s : State) : (State.offer n ts s).settings = s.settings := by
  induction n generalizing s with
  | zero => rfl
  | succ n ih => unfold State.offer; split <;> simp [*]
@[simp] theorem State.offer_slc_commitMark (n : Nat) (ts : List SlotId) (s : State) : (State.offer n ts s).slc.commitMark = s.slc.commitMark := by
  induction n generalizing s with
  | zero => rfl
  | succ n ih => unfold State.offer; split <;> simp [*]
@[simp] theorem State.offer_slc_slot0 (n : Nat) (ts : List SlotId) (s : State) : (State.offer n ts s).slc.slot0 = s.slc.slot0 := by
  induction n generalizing s with
  | zero => rfl
  | succ n ih => unfold State.offer; split <;> simp [*]
@[simp] theorem State.offer_slc_slot1 (n : Nat) (ts : List SlotId) (s : State) : (State.offer n ts s).slc.slot1 = s.slc.slot1 := by
  induction n generalizing s with
  | zero => rfl
  | succ n ih => unfold State.offer; split <;> simp [*]
@[simp] theorem State.offer_slc_permits (n : Nat) (ts : List SlotId) (s : State) : (State.offer n ts s).slc.permits = s.slc.permits := by
  induction n generalizing s with
  | zero => rfl
  | succ n ih => unfold State.offer; split <;> simp [*]
@[simp] theorem State.offer_slc_bars (n : Nat) (ts : List SlotId) (s : State) : (State.offer n ts s).slc.bars = s.slc.bars := by
  induction n generalizing s with
  | zero => rfl
  | succ n ih => unfold State.offer; split <;> simp [*]
@[simp] theorem State.offer_slc_waiting (n : Nat) (ts : List SlotId) (s : State) : (State.offer n ts s).slc.waiting = s.slc.waiting := by
  induction n generalizing s with
  | zero => rfl
  | succ n ih => unfold State.offer; split <;> simp [*]
@[simp] theorem State.offer_slc_waitingTimer (n : Nat) (ts : List SlotId) (s : State) : (State.offer n ts s).slc.waitingTimer = s.slc.waitingTimer := by
  induction n generalizing s with
  | zero => rfl
  | succ n ih => unfold State.offer; split <;> simp [*]
@[simp] theorem State.offerDecks_pending (s : State) : (s.offerDecks).pending = s.pending := by simp [State.offerDecks]
@[simp] theorem State.offerDecks_powered (s : State) : (s.offerDecks).powered = s.powered := by simp [State.offerDecks]
@[simp] theorem State.offerDecks_fpt (s : State) : (s.offerDecks).fpt = s.fpt := by simp [State.offerDecks]
@[simp] theorem State.offerDecks_scn (s : State) : (s.offerDecks).scn = s.scn := by simp [State.offerDecks]
@[simp] theorem State.offerDecks_cells (s : State) : (s.offerDecks).cells = s.cells := by simp [State.offerDecks]
@[simp] theorem State.offerDecks_decks (s : State) : (s.offerDecks).decks = s.decks := by simp [State.offerDecks]
@[simp] theorem State.offerDecks_axt (s : State) : (s.offerDecks).axt = s.axt := by simp [State.offerDecks]
@[simp] theorem State.offerDecks_classes (s : State) : (s.offerDecks).classes = s.classes := by simp [State.offerDecks]
@[simp] theorem State.offerDecks_tku (s : State) : (s.offerDecks).tku = s.tku := by simp [State.offerDecks]
@[simp] theorem State.offerDecks_aud (s : State) : (s.offerDecks).aud = s.aud := by simp [State.offerDecks]
@[simp] theorem State.offerDecks_cal (s : State) : (s.offerDecks).cal = s.cal := by simp [State.offerDecks]
@[simp] theorem State.offerDecks_mst (s : State) : (s.offerDecks).mst = s.mst := by simp [State.offerDecks]
@[simp] theorem State.offerDecks_gpt (s : State) : (s.offerDecks).gpt = s.gpt := by simp [State.offerDecks]
@[simp] theorem State.offerDecks_settings (s : State) : (s.offerDecks).settings = s.settings := by simp [State.offerDecks]
@[simp] theorem State.offerDecks_slc_commitMark (s : State) : (s.offerDecks).slc.commitMark = s.slc.commitMark := by simp [State.offerDecks]
@[simp] theorem State.offerDecks_slc_slot0 (s : State) : (s.offerDecks).slc.slot0 = s.slc.slot0 := by simp [State.offerDecks]
@[simp] theorem State.offerDecks_slc_slot1 (s : State) : (s.offerDecks).slc.slot1 = s.slc.slot1 := by simp [State.offerDecks]
@[simp] theorem State.offerDecks_slc_permits (s : State) : (s.offerDecks).slc.permits = s.slc.permits := by simp [State.offerDecks]
@[simp] theorem State.offerDecks_slc_bars (s : State) : (s.offerDecks).slc.bars = s.slc.bars := by simp [State.offerDecks]
@[simp] theorem State.offerDecks_slc_waiting (s : State) : (s.offerDecks).slc.waiting = s.slc.waiting := by simp [State.offerDecks]
@[simp] theorem State.offerDecks_slc_waitingTimer (s : State) : (s.offerDecks).slc.waitingTimer = s.slc.waitingTimer := by simp [State.offerDecks]

/-! trim (R74) -/

@[simp] theorem State.trim_pending (s : State) (t : SlotId) : (s.trim t).pending = s.pending := rfl
@[simp] theorem State.trim_powered (s : State) (t : SlotId) : (s.trim t).powered = s.powered := rfl
@[simp] theorem State.trim_fpt (s : State) (t : SlotId) : (s.trim t).fpt = s.fpt := rfl
@[simp] theorem State.trim_scn (s : State) (t : SlotId) : (s.trim t).scn = s.scn := rfl
@[simp] theorem State.trim_cells (s : State) (t : SlotId) : (s.trim t).cells = s.cells := rfl
@[simp] theorem State.trim_decks (s : State) (t : SlotId) : (s.trim t).decks = s.decks := rfl
@[simp] theorem State.trim_axt (s : State) (t : SlotId) : (s.trim t).axt = s.axt := rfl
@[simp] theorem State.trim_classes (s : State) (t : SlotId) : (s.trim t).classes = s.classes := rfl
@[simp] theorem State.trim_tku (s : State) (t : SlotId) : (s.trim t).tku = s.tku := rfl
@[simp] theorem State.trim_aud (s : State) (t : SlotId) : (s.trim t).aud = s.aud := rfl
@[simp] theorem State.trim_cal (s : State) (t : SlotId) : (s.trim t).cal = s.cal := rfl
@[simp] theorem State.trim_mst (s : State) (t : SlotId) : (s.trim t).mst = s.mst := rfl
@[simp] theorem State.trim_gpt (s : State) (t : SlotId) : (s.trim t).gpt = s.gpt := rfl
@[simp] theorem State.trim_settings (s : State) (t : SlotId) : (s.trim t).settings = s.settings := rfl
@[simp] theorem State.trim_slc_commitMark (s : State) (t : SlotId) : (s.trim t).slc.commitMark = s.slc.commitMark := rfl
@[simp] theorem State.trim_slc_slot0 (s : State) (t : SlotId) : (s.trim t).slc.slot0 = s.slc.slot0 := rfl
@[simp] theorem State.trim_slc_slot1 (s : State) (t : SlotId) : (s.trim t).slc.slot1 = s.slc.slot1 := rfl
@[simp] theorem State.trim_slc_permits (s : State) (t : SlotId) : (s.trim t).slc.permits = s.slc.permits := rfl
@[simp] theorem State.trim_slc_bars (s : State) (t : SlotId) : (s.trim t).slc.bars = s.slc.bars := rfl
@[simp] theorem State.trim_slc_waiting (s : State) (t : SlotId) : (s.trim t).slc.waiting = s.slc.waiting := rfl
@[simp] theorem State.trim_slc_waitingTimer (s : State) (t : SlotId) : (s.trim t).slc.waitingTimer = s.slc.waitingTimer := rfl

/-! slotMove (R76) -/

@[simp] theorem State.slotMove_pending (s : State) (t : SlotId) (r : Option Nat) : (s.slotMove t r).pending = s.pending := by unfold State.slotMove; dsimp only; (repeat' split) <;> simp
@[simp] theorem State.slotMove_powered (s : State) (t : SlotId) (r : Option Nat) : (s.slotMove t r).powered = s.powered := by unfold State.slotMove; dsimp only; (repeat' split) <;> simp
@[simp] theorem State.slotMove_fpt (s : State) (t : SlotId) (r : Option Nat) : (s.slotMove t r).fpt = s.fpt := by unfold State.slotMove; dsimp only; (repeat' split) <;> simp
@[simp] theorem State.slotMove_scn (s : State) (t : SlotId) (r : Option Nat) : (s.slotMove t r).scn = s.scn := by unfold State.slotMove; dsimp only; (repeat' split) <;> simp
@[simp] theorem State.slotMove_cells (s : State) (t : SlotId) (r : Option Nat) : (s.slotMove t r).cells = s.cells := by unfold State.slotMove; dsimp only; (repeat' split) <;> simp
@[simp] theorem State.slotMove_decks (s : State) (t : SlotId) (r : Option Nat) : (s.slotMove t r).decks = s.decks := by unfold State.slotMove; dsimp only; (repeat' split) <;> simp
@[simp] theorem State.slotMove_axt (s : State) (t : SlotId) (r : Option Nat) : (s.slotMove t r).axt = s.axt := by unfold State.slotMove; dsimp only; (repeat' split) <;> simp
@[simp] theorem State.slotMove_classes (s : State) (t : SlotId) (r : Option Nat) : (s.slotMove t r).classes = s.classes := by unfold State.slotMove; dsimp only; (repeat' split) <;> simp
@[simp] theorem State.slotMove_tku (s : State) (t : SlotId) (r : Option Nat) : (s.slotMove t r).tku = s.tku := by unfold State.slotMove; dsimp only; (repeat' split) <;> simp
@[simp] theorem State.slotMove_aud (s : State) (t : SlotId) (r : Option Nat) : (s.slotMove t r).aud = s.aud := by unfold State.slotMove; dsimp only; (repeat' split) <;> simp
@[simp] theorem State.slotMove_cal (s : State) (t : SlotId) (r : Option Nat) : (s.slotMove t r).cal = s.cal := by unfold State.slotMove; dsimp only; (repeat' split) <;> simp
@[simp] theorem State.slotMove_mst (s : State) (t : SlotId) (r : Option Nat) : (s.slotMove t r).mst = s.mst := by unfold State.slotMove; dsimp only; (repeat' split) <;> simp
@[simp] theorem State.slotMove_gpt (s : State) (t : SlotId) (r : Option Nat) : (s.slotMove t r).gpt = s.gpt := by unfold State.slotMove; dsimp only; (repeat' split) <;> simp
@[simp] theorem State.slotMove_settings (s : State) (t : SlotId) (r : Option Nat) : (s.slotMove t r).settings = s.settings := by unfold State.slotMove; dsimp only; (repeat' split) <;> simp
@[simp] theorem State.slotMove_slc_commitMark (s : State) (t : SlotId) (r : Option Nat) : (s.slotMove t r).slc.commitMark = s.slc.commitMark := by unfold State.slotMove; dsimp only; (repeat' split) <;> simp
@[simp] theorem State.slotMove_slc_permits (s : State) (t : SlotId) (r : Option Nat) : (s.slotMove t r).slc.permits = s.slc.permits := by unfold State.slotMove; dsimp only; (repeat' split) <;> simp
@[simp] theorem State.slotMove_slc_bars (s : State) (t : SlotId) (r : Option Nat) : (s.slotMove t r).slc.bars = s.slc.bars := by unfold State.slotMove; dsimp only; (repeat' split) <;> simp
@[simp] theorem State.slotMove_slc_waiting (s : State) (t : SlotId) (r : Option Nat) : (s.slotMove t r).slc.waiting = s.slc.waiting := by unfold State.slotMove; dsimp only; (repeat' split) <;> simp
@[simp] theorem State.slotMove_slc_waitingTimer (s : State) (t : SlotId) (r : Option Nat) : (s.slotMove t r).slc.waitingTimer = s.slc.waitingTimer := by unfold State.slotMove; dsimp only; (repeat' split) <;> simp

/-! attach (R79) -/

@[simp] theorem State.attach_pending (s : State) (t : SlotId) (i : Identity) : (s.attach t i).pending = s.pending := by unfold State.attach; dsimp only; (repeat' split) <;> simp
@[simp] theorem State.attach_powered (s : State) (t : SlotId) (i : Identity) : (s.attach t i).powered = s.powered := by unfold State.attach; dsimp only; (repeat' split) <;> simp
@[simp] theorem State.attach_fpt (s : State) (t : SlotId) (i : Identity) : (s.attach t i).fpt = s.fpt := by unfold State.attach; dsimp only; (repeat' split) <;> simp
@[simp] theorem State.attach_scn (s : State) (t : SlotId) (i : Identity) : (s.attach t i).scn = s.scn := by unfold State.attach; dsimp only; (repeat' split) <;> simp
@[simp] theorem State.attach_cells (s : State) (t : SlotId) (i : Identity) : (s.attach t i).cells = s.cells := by unfold State.attach; dsimp only; (repeat' split) <;> simp
@[simp] theorem State.attach_decks (s : State) (t : SlotId) (i : Identity) : (s.attach t i).decks = s.decks := by unfold State.attach; dsimp only; (repeat' split) <;> simp
@[simp] theorem State.attach_axt (s : State) (t : SlotId) (i : Identity) : (s.attach t i).axt = s.axt := by unfold State.attach; dsimp only; (repeat' split) <;> simp
@[simp] theorem State.attach_classes (s : State) (t : SlotId) (i : Identity) : (s.attach t i).classes = s.classes := by unfold State.attach; dsimp only; (repeat' split) <;> simp
@[simp] theorem State.attach_tku (s : State) (t : SlotId) (i : Identity) : (s.attach t i).tku = s.tku := by unfold State.attach; dsimp only; (repeat' split) <;> simp
@[simp] theorem State.attach_aud (s : State) (t : SlotId) (i : Identity) : (s.attach t i).aud = s.aud := by unfold State.attach; dsimp only; (repeat' split) <;> simp
@[simp] theorem State.attach_cal (s : State) (t : SlotId) (i : Identity) : (s.attach t i).cal = s.cal := by unfold State.attach; dsimp only; (repeat' split) <;> simp
@[simp] theorem State.attach_mst (s : State) (t : SlotId) (i : Identity) : (s.attach t i).mst = s.mst := by unfold State.attach; dsimp only; (repeat' split) <;> simp
@[simp] theorem State.attach_settings (s : State) (t : SlotId) (i : Identity) : (s.attach t i).settings = s.settings := by unfold State.attach; dsimp only; (repeat' split) <;> simp
@[simp] theorem State.attach_gpt_inward (s : State) (t : SlotId) (i : Identity) : (s.attach t i).gpt.inward = s.gpt.inward := by unfold State.attach; dsimp only; (repeat' split) <;> simp
@[simp] theorem State.attach_gpt_requests (s : State) (t : SlotId) (i : Identity) : (s.attach t i).gpt.requests = s.gpt.requests := by unfold State.attach; dsimp only; (repeat' split) <;> simp
@[simp] theorem State.attach_gpt_responses (s : State) (t : SlotId) (i : Identity) : (s.attach t i).gpt.responses = s.gpt.responses := by unfold State.attach; dsimp only; (repeat' split) <;> simp
@[simp] theorem State.attach_gpt_unanswered (s : State) (t : SlotId) (i : Identity) : (s.attach t i).gpt.unanswered = s.gpt.unanswered := by unfold State.attach; dsimp only; (repeat' split) <;> simp
@[simp] theorem State.attach_gpt_fairness (s : State) (t : SlotId) (i : Identity) : (s.attach t i).gpt.fairness = s.gpt.fairness := by unfold State.attach; dsimp only; (repeat' split) <;> simp
@[simp] theorem State.attach_gpt_lastReported (s : State) (t : SlotId) (i : Identity) : (s.attach t i).gpt.lastReported = s.gpt.lastReported := by unfold State.attach; dsimp only; (repeat' split) <;> simp
@[simp] theorem State.attach_gpt_time (s : State) (t : SlotId) (i : Identity) : (s.attach t i).gpt.time = s.gpt.time := by unfold State.attach; dsimp only; (repeat' split) <;> simp
@[simp] theorem State.attach_gpt_phase (s : State) (t : SlotId) (i : Identity) : (s.attach t i).gpt.phase = s.gpt.phase := by unfold State.attach; dsimp only; (repeat' split) <;> simp
@[simp] theorem State.attach_gpt_lineOut (s : State) (t : SlotId) (i : Identity) : (s.attach t i).gpt.lineOut = s.gpt.lineOut := by unfold State.attach; dsimp only; (repeat' split) <;> simp
@[simp] theorem State.attach_slc_claims (s : State) (t : SlotId) (i : Identity) : (s.attach t i).slc.claims = s.slc.claims := by unfold State.attach; dsimp only; (repeat' split) <;> simp
@[simp] theorem State.attach_slc_commitMark (s : State) (t : SlotId) (i : Identity) : (s.attach t i).slc.commitMark = s.slc.commitMark := by unfold State.attach; dsimp only; (repeat' split) <;> simp
@[simp] theorem State.attach_slc_permits (s : State) (t : SlotId) (i : Identity) : (s.attach t i).slc.permits = s.slc.permits := by unfold State.attach; dsimp only; (repeat' split) <;> simp
@[simp] theorem State.attach_slc_bars (s : State) (t : SlotId) (i : Identity) : (s.attach t i).slc.bars = s.slc.bars := by unfold State.attach; dsimp only; (repeat' split) <;> simp

/-! openSlot (R68) -/

@[simp] theorem State.openSlot_pending (s : State) (t : SlotId) : (s.openSlot t).pending = s.pending := by unfold State.openSlot; dsimp only; split <;> simp
@[simp] theorem State.openSlot_powered (s : State) (t : SlotId) : (s.openSlot t).powered = s.powered := by unfold State.openSlot; dsimp only; split <;> simp
@[simp] theorem State.openSlot_fpt (s : State) (t : SlotId) : (s.openSlot t).fpt = s.fpt := by unfold State.openSlot; dsimp only; split <;> simp
@[simp] theorem State.openSlot_scn (s : State) (t : SlotId) : (s.openSlot t).scn = s.scn := by unfold State.openSlot; dsimp only; split <;> simp
@[simp] theorem State.openSlot_cells (s : State) (t : SlotId) : (s.openSlot t).cells = s.cells := by unfold State.openSlot; dsimp only; split <;> simp
@[simp] theorem State.openSlot_decks (s : State) (t : SlotId) : (s.openSlot t).decks = s.decks := by unfold State.openSlot; dsimp only; split <;> simp
@[simp] theorem State.openSlot_axt (s : State) (t : SlotId) : (s.openSlot t).axt = s.axt := by unfold State.openSlot; dsimp only; split <;> simp
@[simp] theorem State.openSlot_classes (s : State) (t : SlotId) : (s.openSlot t).classes = s.classes := by unfold State.openSlot; dsimp only; split <;> simp
@[simp] theorem State.openSlot_tku (s : State) (t : SlotId) : (s.openSlot t).tku = s.tku := by unfold State.openSlot; dsimp only; split <;> simp
@[simp] theorem State.openSlot_aud (s : State) (t : SlotId) : (s.openSlot t).aud = s.aud := by unfold State.openSlot; dsimp only; split <;> simp
@[simp] theorem State.openSlot_cal (s : State) (t : SlotId) : (s.openSlot t).cal = s.cal := by unfold State.openSlot; dsimp only; split <;> simp
@[simp] theorem State.openSlot_mst (s : State) (t : SlotId) : (s.openSlot t).mst = s.mst := by unfold State.openSlot; dsimp only; split <;> simp
@[simp] theorem State.openSlot_settings (s : State) (t : SlotId) : (s.openSlot t).settings = s.settings := by unfold State.openSlot; dsimp only; split <;> simp
@[simp] theorem State.openSlot_gpt_inward (s : State) (t : SlotId) : (s.openSlot t).gpt.inward = s.gpt.inward := by unfold State.openSlot; dsimp only; split <;> simp
@[simp] theorem State.openSlot_gpt_requests (s : State) (t : SlotId) : (s.openSlot t).gpt.requests = s.gpt.requests := by unfold State.openSlot; dsimp only; split <;> simp
@[simp] theorem State.openSlot_gpt_responses (s : State) (t : SlotId) : (s.openSlot t).gpt.responses = s.gpt.responses := by unfold State.openSlot; dsimp only; split <;> simp
@[simp] theorem State.openSlot_gpt_unanswered (s : State) (t : SlotId) : (s.openSlot t).gpt.unanswered = s.gpt.unanswered := by unfold State.openSlot; dsimp only; split <;> simp
@[simp] theorem State.openSlot_gpt_fairness (s : State) (t : SlotId) : (s.openSlot t).gpt.fairness = s.gpt.fairness := by unfold State.openSlot; dsimp only; split <;> simp
@[simp] theorem State.openSlot_gpt_lastReported (s : State) (t : SlotId) : (s.openSlot t).gpt.lastReported = s.gpt.lastReported := by unfold State.openSlot; dsimp only; split <;> simp
@[simp] theorem State.openSlot_gpt_time (s : State) (t : SlotId) : (s.openSlot t).gpt.time = s.gpt.time := by unfold State.openSlot; dsimp only; split <;> simp
@[simp] theorem State.openSlot_gpt_phase (s : State) (t : SlotId) : (s.openSlot t).gpt.phase = s.gpt.phase := by unfold State.openSlot; dsimp only; split <;> simp
@[simp] theorem State.openSlot_gpt_lineOut (s : State) (t : SlotId) : (s.openSlot t).gpt.lineOut = s.gpt.lineOut := by unfold State.openSlot; dsimp only; split <;> simp
@[simp] theorem State.openSlot_slc_commitMark (s : State) (t : SlotId) : (s.openSlot t).slc.commitMark = s.slc.commitMark := by unfold State.openSlot; dsimp only; split <;> simp
@[simp] theorem State.openSlot_slc_permits (s : State) (t : SlotId) : (s.openSlot t).slc.permits = s.slc.permits := by unfold State.openSlot; dsimp only; split <;> simp
@[simp] theorem State.openSlot_slc_bars (s : State) (t : SlotId) : (s.openSlot t).slc.bars = s.slc.bars := by unfold State.openSlot; dsimp only; split <;> simp

/-! abort (R83) -/

@[simp] theorem State.abort_pending (s : State) (t : SlotId) : (s.abort t).pending = s.pending := by simp [State.abort]
@[simp] theorem State.abort_powered (s : State) (t : SlotId) : (s.abort t).powered = s.powered := by simp [State.abort]
@[simp] theorem State.abort_fpt (s : State) (t : SlotId) : (s.abort t).fpt = s.fpt := by simp [State.abort]
@[simp] theorem State.abort_scn (s : State) (t : SlotId) : (s.abort t).scn = s.scn := by simp [State.abort]
@[simp] theorem State.abort_cells (s : State) (t : SlotId) : (s.abort t).cells = s.cells := by simp [State.abort]
@[simp] theorem State.abort_decks (s : State) (t : SlotId) : (s.abort t).decks = s.decks := by simp [State.abort]
@[simp] theorem State.abort_axt (s : State) (t : SlotId) : (s.abort t).axt = s.axt := by simp [State.abort]
@[simp] theorem State.abort_classes (s : State) (t : SlotId) : (s.abort t).classes = s.classes := by simp [State.abort]
@[simp] theorem State.abort_tku (s : State) (t : SlotId) : (s.abort t).tku = s.tku := by simp [State.abort]
@[simp] theorem State.abort_aud (s : State) (t : SlotId) : (s.abort t).aud = s.aud := by simp [State.abort]
@[simp] theorem State.abort_cal (s : State) (t : SlotId) : (s.abort t).cal = s.cal := by simp [State.abort]
@[simp] theorem State.abort_mst (s : State) (t : SlotId) : (s.abort t).mst = s.mst := by simp [State.abort]
@[simp] theorem State.abort_gpt (s : State) (t : SlotId) : (s.abort t).gpt = s.gpt := by simp [State.abort]
@[simp] theorem State.abort_settings (s : State) (t : SlotId) : (s.abort t).settings = s.settings := by simp [State.abort]
@[simp] theorem State.abort_slc_claims (s : State) (t : SlotId) : (s.abort t).slc.claims = s.slc.claims := by simp [State.abort]
@[simp] theorem State.abort_slc_commitMark (s : State) (t : SlotId) : (s.abort t).slc.commitMark = s.slc.commitMark := by simp [State.abort]
@[simp] theorem State.abort_slc_permits (s : State) (t : SlotId) : (s.abort t).slc.permits = s.slc.permits := by simp [State.abort]
@[simp] theorem State.abort_slc_bars (s : State) (t : SlotId) : (s.abort t).slc.bars = s.slc.bars := by simp [State.abort]
@[simp] theorem State.abort_slc_waiting (s : State) (t : SlotId) : (s.abort t).slc.waiting = s.slc.waiting := by simp [State.abort]
@[simp] theorem State.abort_slc_waitingTimer (s : State) (t : SlotId) : (s.abort t).slc.waitingTimer = s.slc.waitingTimer := by simp [State.abort]

/-! slotOutcome (R70) -/

@[simp] theorem State.slotOutcome_pending (s : State) (t : SlotId) (ok : Bool) : (s.slotOutcome t ok).pending = s.pending := by unfold State.slotOutcome; dsimp only; (repeat' split) <;> simp
@[simp] theorem State.slotOutcome_powered (s : State) (t : SlotId) (ok : Bool) : (s.slotOutcome t ok).powered = s.powered := by unfold State.slotOutcome; dsimp only; (repeat' split) <;> simp
@[simp] theorem State.slotOutcome_fpt (s : State) (t : SlotId) (ok : Bool) : (s.slotOutcome t ok).fpt = s.fpt := by unfold State.slotOutcome; dsimp only; (repeat' split) <;> simp
@[simp] theorem State.slotOutcome_scn (s : State) (t : SlotId) (ok : Bool) : (s.slotOutcome t ok).scn = s.scn := by unfold State.slotOutcome; dsimp only; (repeat' split) <;> simp
@[simp] theorem State.slotOutcome_cells (s : State) (t : SlotId) (ok : Bool) : (s.slotOutcome t ok).cells = s.cells := by unfold State.slotOutcome; dsimp only; (repeat' split) <;> simp
@[simp] theorem State.slotOutcome_decks (s : State) (t : SlotId) (ok : Bool) : (s.slotOutcome t ok).decks = s.decks := by unfold State.slotOutcome; dsimp only; (repeat' split) <;> simp
@[simp] theorem State.slotOutcome_axt (s : State) (t : SlotId) (ok : Bool) : (s.slotOutcome t ok).axt = s.axt := by unfold State.slotOutcome; dsimp only; (repeat' split) <;> simp
@[simp] theorem State.slotOutcome_classes (s : State) (t : SlotId) (ok : Bool) : (s.slotOutcome t ok).classes = s.classes := by unfold State.slotOutcome; dsimp only; (repeat' split) <;> simp
@[simp] theorem State.slotOutcome_tku (s : State) (t : SlotId) (ok : Bool) : (s.slotOutcome t ok).tku = s.tku := by unfold State.slotOutcome; dsimp only; (repeat' split) <;> simp
@[simp] theorem State.slotOutcome_aud (s : State) (t : SlotId) (ok : Bool) : (s.slotOutcome t ok).aud = s.aud := by unfold State.slotOutcome; dsimp only; (repeat' split) <;> simp
@[simp] theorem State.slotOutcome_cal (s : State) (t : SlotId) (ok : Bool) : (s.slotOutcome t ok).cal = s.cal := by unfold State.slotOutcome; dsimp only; (repeat' split) <;> simp
@[simp] theorem State.slotOutcome_mst (s : State) (t : SlotId) (ok : Bool) : (s.slotOutcome t ok).mst = s.mst := by unfold State.slotOutcome; dsimp only; (repeat' split) <;> simp
@[simp] theorem State.slotOutcome_gpt (s : State) (t : SlotId) (ok : Bool) : (s.slotOutcome t ok).gpt = s.gpt := by unfold State.slotOutcome; dsimp only; (repeat' split) <;> simp
@[simp] theorem State.slotOutcome_settings (s : State) (t : SlotId) (ok : Bool) : (s.slotOutcome t ok).settings = s.settings := by unfold State.slotOutcome; dsimp only; (repeat' split) <;> simp
@[simp] theorem State.slotOutcome_slc_claims (s : State) (t : SlotId) (ok : Bool) : (s.slotOutcome t ok).slc.claims = s.slc.claims := by unfold State.slotOutcome; dsimp only; (repeat' split) <;> simp
@[simp] theorem State.slotOutcome_slc_commitMark (s : State) (t : SlotId) (ok : Bool) : (s.slotOutcome t ok).slc.commitMark = s.slc.commitMark := by unfold State.slotOutcome; dsimp only; (repeat' split) <;> simp
@[simp] theorem State.slotOutcome_slc_permits (s : State) (t : SlotId) (ok : Bool) : (s.slotOutcome t ok).slc.permits = s.slc.permits := by unfold State.slotOutcome; dsimp only; (repeat' split) <;> simp
@[simp] theorem State.slotOutcome_slc_bars (s : State) (t : SlotId) (ok : Bool) : (s.slotOutcome t ok).slc.bars = s.slc.bars := by unfold State.slotOutcome; dsimp only; (repeat' split) <;> simp
@[simp] theorem State.slotOutcome_slc_waiting (s : State) (t : SlotId) (ok : Bool) : (s.slotOutcome t ok).slc.waiting = s.slc.waiting := by unfold State.slotOutcome; dsimp only; (repeat' split) <;> simp
@[simp] theorem State.slotOutcome_slc_waitingTimer (s : State) (t : SlotId) (ok : Bool) : (s.slotOutcome t ok).slc.waitingTimer = s.slc.waitingTimer := by unfold State.slotOutcome; dsimp only; (repeat' split) <;> simp

/-! Monitors (R20 to R22) -/

@[simp] theorem State.latch_pending (s : State) (i : Nat) (k : Monitor) (v : Int) (t : Threshold) : (s.latch i k v t).pending = s.pending := by unfold State.latch; dsimp only; (repeat' split) <;> simp
@[simp] theorem State.latch_powered (s : State) (i : Nat) (k : Monitor) (v : Int) (t : Threshold) : (s.latch i k v t).powered = s.powered := by unfold State.latch; dsimp only; (repeat' split) <;> simp
@[simp] theorem State.latch_fpt (s : State) (i : Nat) (k : Monitor) (v : Int) (t : Threshold) : (s.latch i k v t).fpt = s.fpt := by unfold State.latch; dsimp only; (repeat' split) <;> simp
@[simp] theorem State.latch_scn (s : State) (i : Nat) (k : Monitor) (v : Int) (t : Threshold) : (s.latch i k v t).scn = s.scn := by unfold State.latch; dsimp only; (repeat' split) <;> simp
@[simp] theorem State.latch_decks (s : State) (i : Nat) (k : Monitor) (v : Int) (t : Threshold) : (s.latch i k v t).decks = s.decks := by unfold State.latch; dsimp only; (repeat' split) <;> simp
@[simp] theorem State.latch_axt (s : State) (i : Nat) (k : Monitor) (v : Int) (t : Threshold) : (s.latch i k v t).axt = s.axt := by unfold State.latch; dsimp only; (repeat' split) <;> simp
@[simp] theorem State.latch_slc (s : State) (i : Nat) (k : Monitor) (v : Int) (t : Threshold) : (s.latch i k v t).slc = s.slc := by unfold State.latch; dsimp only; (repeat' split) <;> simp
@[simp] theorem State.latch_classes (s : State) (i : Nat) (k : Monitor) (v : Int) (t : Threshold) : (s.latch i k v t).classes = s.classes := by unfold State.latch; dsimp only; (repeat' split) <;> simp
@[simp] theorem State.latch_tku (s : State) (i : Nat) (k : Monitor) (v : Int) (t : Threshold) : (s.latch i k v t).tku = s.tku := by unfold State.latch; dsimp only; (repeat' split) <;> simp
@[simp] theorem State.latch_aud (s : State) (i : Nat) (k : Monitor) (v : Int) (t : Threshold) : (s.latch i k v t).aud = s.aud := by unfold State.latch; dsimp only; (repeat' split) <;> simp
@[simp] theorem State.latch_cal (s : State) (i : Nat) (k : Monitor) (v : Int) (t : Threshold) : (s.latch i k v t).cal = s.cal := by unfold State.latch; dsimp only; (repeat' split) <;> simp
@[simp] theorem State.latch_mst (s : State) (i : Nat) (k : Monitor) (v : Int) (t : Threshold) : (s.latch i k v t).mst = s.mst := by unfold State.latch; dsimp only; (repeat' split) <;> simp
@[simp] theorem State.latch_settings (s : State) (i : Nat) (k : Monitor) (v : Int) (t : Threshold) : (s.latch i k v t).settings = s.settings := by unfold State.latch; dsimp only; (repeat' split) <;> simp
@[simp] theorem State.latch_gpt_inward (s : State) (i : Nat) (k : Monitor) (v : Int) (t : Threshold) : (s.latch i k v t).gpt.inward = s.gpt.inward := by unfold State.latch; dsimp only; (repeat' split) <;> simp
@[simp] theorem State.latch_gpt_requests (s : State) (i : Nat) (k : Monitor) (v : Int) (t : Threshold) : (s.latch i k v t).gpt.requests = s.gpt.requests := by unfold State.latch; dsimp only; (repeat' split) <;> simp
@[simp] theorem State.latch_gpt_responses (s : State) (i : Nat) (k : Monitor) (v : Int) (t : Threshold) : (s.latch i k v t).gpt.responses = s.gpt.responses := by unfold State.latch; dsimp only; (repeat' split) <;> simp
@[simp] theorem State.latch_gpt_unanswered (s : State) (i : Nat) (k : Monitor) (v : Int) (t : Threshold) : (s.latch i k v t).gpt.unanswered = s.gpt.unanswered := by unfold State.latch; dsimp only; (repeat' split) <;> simp
@[simp] theorem State.latch_gpt_fairness (s : State) (i : Nat) (k : Monitor) (v : Int) (t : Threshold) : (s.latch i k v t).gpt.fairness = s.gpt.fairness := by unfold State.latch; dsimp only; (repeat' split) <;> simp
@[simp] theorem State.latch_gpt_lastReported (s : State) (i : Nat) (k : Monitor) (v : Int) (t : Threshold) : (s.latch i k v t).gpt.lastReported = s.gpt.lastReported := by unfold State.latch; dsimp only; (repeat' split) <;> simp
@[simp] theorem State.latch_gpt_time (s : State) (i : Nat) (k : Monitor) (v : Int) (t : Threshold) : (s.latch i k v t).gpt.time = s.gpt.time := by unfold State.latch; dsimp only; (repeat' split) <;> simp
@[simp] theorem State.latch_gpt_phase (s : State) (i : Nat) (k : Monitor) (v : Int) (t : Threshold) : (s.latch i k v t).gpt.phase = s.gpt.phase := by unfold State.latch; dsimp only; (repeat' split) <;> simp
@[simp] theorem State.latch_gpt_lineOut (s : State) (i : Nat) (k : Monitor) (v : Int) (t : Threshold) : (s.latch i k v t).gpt.lineOut = s.gpt.lineOut := by unfold State.latch; dsimp only; (repeat' split) <;> simp
@[simp] theorem State.monitor_pending (s : State) (rs : List Reading) : (s.monitor rs).pending = s.pending := by
  unfold State.monitor
  refine (foldl_keeps (fun s => s.pending) _ (fun s t => foldl_keeps (fun s => s.pending) _ (fun s r => by simp) rs s) _ _).trans ?_
  exact foldl_keeps (fun s => s.pending) _ (fun s r => by simp) rs s
@[simp] theorem State.monitor_powered (s : State) (rs : List Reading) : (s.monitor rs).powered = s.powered := by
  unfold State.monitor
  refine (foldl_keeps (fun s => s.powered) _ (fun s t => foldl_keeps (fun s => s.powered) _ (fun s r => by simp) rs s) _ _).trans ?_
  exact foldl_keeps (fun s => s.powered) _ (fun s r => by simp) rs s
@[simp] theorem State.monitor_fpt (s : State) (rs : List Reading) : (s.monitor rs).fpt = s.fpt := by
  unfold State.monitor
  refine (foldl_keeps (fun s => s.fpt) _ (fun s t => foldl_keeps (fun s => s.fpt) _ (fun s r => by simp) rs s) _ _).trans ?_
  exact foldl_keeps (fun s => s.fpt) _ (fun s r => by simp) rs s
@[simp] theorem State.monitor_scn (s : State) (rs : List Reading) : (s.monitor rs).scn = s.scn := by
  unfold State.monitor
  refine (foldl_keeps (fun s => s.scn) _ (fun s t => foldl_keeps (fun s => s.scn) _ (fun s r => by simp) rs s) _ _).trans ?_
  exact foldl_keeps (fun s => s.scn) _ (fun s r => by simp) rs s
@[simp] theorem State.monitor_decks (s : State) (rs : List Reading) : (s.monitor rs).decks = s.decks := by
  unfold State.monitor
  refine (foldl_keeps (fun s => s.decks) _ (fun s t => foldl_keeps (fun s => s.decks) _ (fun s r => by simp) rs s) _ _).trans ?_
  exact foldl_keeps (fun s => s.decks) _ (fun s r => by simp) rs s
@[simp] theorem State.monitor_axt (s : State) (rs : List Reading) : (s.monitor rs).axt = s.axt := by
  unfold State.monitor
  refine (foldl_keeps (fun s => s.axt) _ (fun s t => foldl_keeps (fun s => s.axt) _ (fun s r => by simp) rs s) _ _).trans ?_
  exact foldl_keeps (fun s => s.axt) _ (fun s r => by simp) rs s
@[simp] theorem State.monitor_slc (s : State) (rs : List Reading) : (s.monitor rs).slc = s.slc := by
  unfold State.monitor
  refine (foldl_keeps (fun s => s.slc) _ (fun s t => foldl_keeps (fun s => s.slc) _ (fun s r => by simp) rs s) _ _).trans ?_
  exact foldl_keeps (fun s => s.slc) _ (fun s r => by simp) rs s
@[simp] theorem State.monitor_classes (s : State) (rs : List Reading) : (s.monitor rs).classes = s.classes := by
  unfold State.monitor
  refine (foldl_keeps (fun s => s.classes) _ (fun s t => foldl_keeps (fun s => s.classes) _ (fun s r => by simp) rs s) _ _).trans ?_
  exact foldl_keeps (fun s => s.classes) _ (fun s r => by simp) rs s
@[simp] theorem State.monitor_tku (s : State) (rs : List Reading) : (s.monitor rs).tku = s.tku := by
  unfold State.monitor
  refine (foldl_keeps (fun s => s.tku) _ (fun s t => foldl_keeps (fun s => s.tku) _ (fun s r => by simp) rs s) _ _).trans ?_
  exact foldl_keeps (fun s => s.tku) _ (fun s r => by simp) rs s
@[simp] theorem State.monitor_aud (s : State) (rs : List Reading) : (s.monitor rs).aud = s.aud := by
  unfold State.monitor
  refine (foldl_keeps (fun s => s.aud) _ (fun s t => foldl_keeps (fun s => s.aud) _ (fun s r => by simp) rs s) _ _).trans ?_
  exact foldl_keeps (fun s => s.aud) _ (fun s r => by simp) rs s
@[simp] theorem State.monitor_cal (s : State) (rs : List Reading) : (s.monitor rs).cal = s.cal := by
  unfold State.monitor
  refine (foldl_keeps (fun s => s.cal) _ (fun s t => foldl_keeps (fun s => s.cal) _ (fun s r => by simp) rs s) _ _).trans ?_
  exact foldl_keeps (fun s => s.cal) _ (fun s r => by simp) rs s
@[simp] theorem State.monitor_mst (s : State) (rs : List Reading) : (s.monitor rs).mst = s.mst := by
  unfold State.monitor
  refine (foldl_keeps (fun s => s.mst) _ (fun s t => foldl_keeps (fun s => s.mst) _ (fun s r => by simp) rs s) _ _).trans ?_
  exact foldl_keeps (fun s => s.mst) _ (fun s r => by simp) rs s
@[simp] theorem State.monitor_settings (s : State) (rs : List Reading) : (s.monitor rs).settings = s.settings := by
  unfold State.monitor
  refine (foldl_keeps (fun s => s.settings) _ (fun s t => foldl_keeps (fun s => s.settings) _ (fun s r => by simp) rs s) _ _).trans ?_
  exact foldl_keeps (fun s => s.settings) _ (fun s r => by simp) rs s
@[simp] theorem State.monitor_gpt_inward (s : State) (rs : List Reading) : (s.monitor rs).gpt.inward = s.gpt.inward := by
  unfold State.monitor
  refine (foldl_keeps (fun s => s.gpt.inward) _ (fun s t => foldl_keeps (fun s => s.gpt.inward) _ (fun s r => by simp) rs s) _ _).trans ?_
  exact foldl_keeps (fun s => s.gpt.inward) _ (fun s r => by simp) rs s
@[simp] theorem State.monitor_gpt_requests (s : State) (rs : List Reading) : (s.monitor rs).gpt.requests = s.gpt.requests := by
  unfold State.monitor
  refine (foldl_keeps (fun s => s.gpt.requests) _ (fun s t => foldl_keeps (fun s => s.gpt.requests) _ (fun s r => by simp) rs s) _ _).trans ?_
  exact foldl_keeps (fun s => s.gpt.requests) _ (fun s r => by simp) rs s
@[simp] theorem State.monitor_gpt_responses (s : State) (rs : List Reading) : (s.monitor rs).gpt.responses = s.gpt.responses := by
  unfold State.monitor
  refine (foldl_keeps (fun s => s.gpt.responses) _ (fun s t => foldl_keeps (fun s => s.gpt.responses) _ (fun s r => by simp) rs s) _ _).trans ?_
  exact foldl_keeps (fun s => s.gpt.responses) _ (fun s r => by simp) rs s
@[simp] theorem State.monitor_gpt_unanswered (s : State) (rs : List Reading) : (s.monitor rs).gpt.unanswered = s.gpt.unanswered := by
  unfold State.monitor
  refine (foldl_keeps (fun s => s.gpt.unanswered) _ (fun s t => foldl_keeps (fun s => s.gpt.unanswered) _ (fun s r => by simp) rs s) _ _).trans ?_
  exact foldl_keeps (fun s => s.gpt.unanswered) _ (fun s r => by simp) rs s
@[simp] theorem State.monitor_gpt_fairness (s : State) (rs : List Reading) : (s.monitor rs).gpt.fairness = s.gpt.fairness := by
  unfold State.monitor
  refine (foldl_keeps (fun s => s.gpt.fairness) _ (fun s t => foldl_keeps (fun s => s.gpt.fairness) _ (fun s r => by simp) rs s) _ _).trans ?_
  exact foldl_keeps (fun s => s.gpt.fairness) _ (fun s r => by simp) rs s
@[simp] theorem State.monitor_gpt_lastReported (s : State) (rs : List Reading) : (s.monitor rs).gpt.lastReported = s.gpt.lastReported := by
  unfold State.monitor
  refine (foldl_keeps (fun s => s.gpt.lastReported) _ (fun s t => foldl_keeps (fun s => s.gpt.lastReported) _ (fun s r => by simp) rs s) _ _).trans ?_
  exact foldl_keeps (fun s => s.gpt.lastReported) _ (fun s r => by simp) rs s
@[simp] theorem State.monitor_gpt_time (s : State) (rs : List Reading) : (s.monitor rs).gpt.time = s.gpt.time := by
  unfold State.monitor
  refine (foldl_keeps (fun s => s.gpt.time) _ (fun s t => foldl_keeps (fun s => s.gpt.time) _ (fun s r => by simp) rs s) _ _).trans ?_
  exact foldl_keeps (fun s => s.gpt.time) _ (fun s r => by simp) rs s
@[simp] theorem State.monitor_gpt_phase (s : State) (rs : List Reading) : (s.monitor rs).gpt.phase = s.gpt.phase := by
  unfold State.monitor
  refine (foldl_keeps (fun s => s.gpt.phase) _ (fun s t => foldl_keeps (fun s => s.gpt.phase) _ (fun s r => by simp) rs s) _ _).trans ?_
  exact foldl_keeps (fun s => s.gpt.phase) _ (fun s r => by simp) rs s
@[simp] theorem State.monitor_gpt_lineOut (s : State) (rs : List Reading) : (s.monitor rs).gpt.lineOut = s.gpt.lineOut := by
  unfold State.monitor
  refine (foldl_keeps (fun s => s.gpt.lineOut) _ (fun s t => foldl_keeps (fun s => s.gpt.lineOut) _ (fun s r => by simp) rs s) _ _).trans ?_
  exact foldl_keeps (fun s => s.gpt.lineOut) _ (fun s r => by simp) rs s
@[simp] theorem State.ackFlag_pending (s : State) (i : Nat) (k : Monitor) (t : Threshold) : (s.ackFlag i k t).pending = s.pending := by unfold State.ackFlag; (repeat' split) <;> simp
@[simp] theorem State.ackFlag_powered (s : State) (i : Nat) (k : Monitor) (t : Threshold) : (s.ackFlag i k t).powered = s.powered := by unfold State.ackFlag; (repeat' split) <;> simp
@[simp] theorem State.ackFlag_fpt (s : State) (i : Nat) (k : Monitor) (t : Threshold) : (s.ackFlag i k t).fpt = s.fpt := by unfold State.ackFlag; (repeat' split) <;> simp
@[simp] theorem State.ackFlag_scn (s : State) (i : Nat) (k : Monitor) (t : Threshold) : (s.ackFlag i k t).scn = s.scn := by unfold State.ackFlag; (repeat' split) <;> simp
@[simp] theorem State.ackFlag_decks (s : State) (i : Nat) (k : Monitor) (t : Threshold) : (s.ackFlag i k t).decks = s.decks := by unfold State.ackFlag; (repeat' split) <;> simp
@[simp] theorem State.ackFlag_axt (s : State) (i : Nat) (k : Monitor) (t : Threshold) : (s.ackFlag i k t).axt = s.axt := by unfold State.ackFlag; (repeat' split) <;> simp
@[simp] theorem State.ackFlag_slc (s : State) (i : Nat) (k : Monitor) (t : Threshold) : (s.ackFlag i k t).slc = s.slc := by unfold State.ackFlag; (repeat' split) <;> simp
@[simp] theorem State.ackFlag_classes (s : State) (i : Nat) (k : Monitor) (t : Threshold) : (s.ackFlag i k t).classes = s.classes := by unfold State.ackFlag; (repeat' split) <;> simp
@[simp] theorem State.ackFlag_tku (s : State) (i : Nat) (k : Monitor) (t : Threshold) : (s.ackFlag i k t).tku = s.tku := by unfold State.ackFlag; (repeat' split) <;> simp
@[simp] theorem State.ackFlag_aud (s : State) (i : Nat) (k : Monitor) (t : Threshold) : (s.ackFlag i k t).aud = s.aud := by unfold State.ackFlag; (repeat' split) <;> simp
@[simp] theorem State.ackFlag_cal (s : State) (i : Nat) (k : Monitor) (t : Threshold) : (s.ackFlag i k t).cal = s.cal := by unfold State.ackFlag; (repeat' split) <;> simp
@[simp] theorem State.ackFlag_mst (s : State) (i : Nat) (k : Monitor) (t : Threshold) : (s.ackFlag i k t).mst = s.mst := by unfold State.ackFlag; (repeat' split) <;> simp
@[simp] theorem State.ackFlag_gpt (s : State) (i : Nat) (k : Monitor) (t : Threshold) : (s.ackFlag i k t).gpt = s.gpt := by unfold State.ackFlag; (repeat' split) <;> simp
@[simp] theorem State.ackFlag_settings (s : State) (i : Nat) (k : Monitor) (t : Threshold) : (s.ackFlag i k t).settings = s.settings := by unfold State.ackFlag; (repeat' split) <;> simp
@[simp] theorem State.ackCell_pending (s : State) (i : Nat) : (s.ackCell i).pending = s.pending := by simp [State.ackCell, allThresholds]
@[simp] theorem State.ackCell_powered (s : State) (i : Nat) : (s.ackCell i).powered = s.powered := by simp [State.ackCell, allThresholds]
@[simp] theorem State.ackCell_fpt (s : State) (i : Nat) : (s.ackCell i).fpt = s.fpt := by simp [State.ackCell, allThresholds]
@[simp] theorem State.ackCell_scn (s : State) (i : Nat) : (s.ackCell i).scn = s.scn := by simp [State.ackCell, allThresholds]
@[simp] theorem State.ackCell_decks (s : State) (i : Nat) : (s.ackCell i).decks = s.decks := by simp [State.ackCell, allThresholds]
@[simp] theorem State.ackCell_axt (s : State) (i : Nat) : (s.ackCell i).axt = s.axt := by simp [State.ackCell, allThresholds]
@[simp] theorem State.ackCell_slc (s : State) (i : Nat) : (s.ackCell i).slc = s.slc := by simp [State.ackCell, allThresholds]
@[simp] theorem State.ackCell_classes (s : State) (i : Nat) : (s.ackCell i).classes = s.classes := by simp [State.ackCell, allThresholds]
@[simp] theorem State.ackCell_tku (s : State) (i : Nat) : (s.ackCell i).tku = s.tku := by simp [State.ackCell, allThresholds]
@[simp] theorem State.ackCell_aud (s : State) (i : Nat) : (s.ackCell i).aud = s.aud := by simp [State.ackCell, allThresholds]
@[simp] theorem State.ackCell_cal (s : State) (i : Nat) : (s.ackCell i).cal = s.cal := by simp [State.ackCell, allThresholds]
@[simp] theorem State.ackCell_mst (s : State) (i : Nat) : (s.ackCell i).mst = s.mst := by simp [State.ackCell, allThresholds]
@[simp] theorem State.ackCell_gpt (s : State) (i : Nat) : (s.ackCell i).gpt = s.gpt := by simp [State.ackCell, allThresholds]
@[simp] theorem State.ackCell_settings (s : State) (i : Nat) : (s.ackCell i).settings = s.settings := by simp [State.ackCell, allThresholds]

/-! Windows and deck faults (R28, R32) -/

@[simp] theorem State.restart_pending (s : State) (d : Nat) : (s.restart d).pending = s.pending := rfl
@[simp] theorem State.restart_powered (s : State) (d : Nat) : (s.restart d).powered = s.powered := rfl
@[simp] theorem State.restart_fpt (s : State) (d : Nat) : (s.restart d).fpt = s.fpt := rfl
@[simp] theorem State.restart_scn (s : State) (d : Nat) : (s.restart d).scn = s.scn := rfl
@[simp] theorem State.restart_axt (s : State) (d : Nat) : (s.restart d).axt = s.axt := rfl
@[simp] theorem State.restart_slc (s : State) (d : Nat) : (s.restart d).slc = s.slc := rfl
@[simp] theorem State.restart_classes (s : State) (d : Nat) : (s.restart d).classes = s.classes := rfl
@[simp] theorem State.restart_tku (s : State) (d : Nat) : (s.restart d).tku = s.tku := rfl
@[simp] theorem State.restart_aud (s : State) (d : Nat) : (s.restart d).aud = s.aud := rfl
@[simp] theorem State.restart_cal (s : State) (d : Nat) : (s.restart d).cal = s.cal := rfl
@[simp] theorem State.restart_mst (s : State) (d : Nat) : (s.restart d).mst = s.mst := rfl
@[simp] theorem State.restart_gpt (s : State) (d : Nat) : (s.restart d).gpt = s.gpt := rfl
@[simp] theorem State.restart_settings (s : State) (d : Nat) : (s.restart d).settings = s.settings := rfl
@[simp] theorem State.deckFault_pending (s : State) (d : Nat) : (s.deckFault d).pending = s.pending := rfl
@[simp] theorem State.deckFault_powered (s : State) (d : Nat) : (s.deckFault d).powered = s.powered := rfl
@[simp] theorem State.deckFault_fpt (s : State) (d : Nat) : (s.deckFault d).fpt = s.fpt := rfl
@[simp] theorem State.deckFault_scn (s : State) (d : Nat) : (s.deckFault d).scn = s.scn := rfl
@[simp] theorem State.deckFault_axt (s : State) (d : Nat) : (s.deckFault d).axt = s.axt := rfl
@[simp] theorem State.deckFault_slc (s : State) (d : Nat) : (s.deckFault d).slc = s.slc := rfl
@[simp] theorem State.deckFault_classes (s : State) (d : Nat) : (s.deckFault d).classes = s.classes := rfl
@[simp] theorem State.deckFault_tku (s : State) (d : Nat) : (s.deckFault d).tku = s.tku := rfl
@[simp] theorem State.deckFault_aud (s : State) (d : Nat) : (s.deckFault d).aud = s.aud := rfl
@[simp] theorem State.deckFault_cal (s : State) (d : Nat) : (s.deckFault d).cal = s.cal := rfl
@[simp] theorem State.deckFault_mst (s : State) (d : Nat) : (s.deckFault d).mst = s.mst := rfl
@[simp] theorem State.deckFault_gpt (s : State) (d : Nat) : (s.deckFault d).gpt = s.gpt := rfl
@[simp] theorem State.deckFault_settings (s : State) (d : Nat) : (s.deckFault d).settings = s.settings := rfl
@[simp] theorem State.cellFailed_pending (s : State) (d : Nat) : (s.cellFailed d).pending = s.pending := by unfold State.cellFailed; split <;> simp
@[simp] theorem State.cellFailed_powered (s : State) (d : Nat) : (s.cellFailed d).powered = s.powered := by unfold State.cellFailed; split <;> simp
@[simp] theorem State.cellFailed_fpt (s : State) (d : Nat) : (s.cellFailed d).fpt = s.fpt := by unfold State.cellFailed; split <;> simp
@[simp] theorem State.cellFailed_scn (s : State) (d : Nat) : (s.cellFailed d).scn = s.scn := by unfold State.cellFailed; split <;> simp
@[simp] theorem State.cellFailed_axt (s : State) (d : Nat) : (s.cellFailed d).axt = s.axt := by unfold State.cellFailed; split <;> simp
@[simp] theorem State.cellFailed_slc (s : State) (d : Nat) : (s.cellFailed d).slc = s.slc := by unfold State.cellFailed; split <;> simp
@[simp] theorem State.cellFailed_classes (s : State) (d : Nat) : (s.cellFailed d).classes = s.classes := by unfold State.cellFailed; split <;> simp
@[simp] theorem State.cellFailed_tku (s : State) (d : Nat) : (s.cellFailed d).tku = s.tku := by unfold State.cellFailed; split <;> simp
@[simp] theorem State.cellFailed_aud (s : State) (d : Nat) : (s.cellFailed d).aud = s.aud := by unfold State.cellFailed; split <;> simp
@[simp] theorem State.cellFailed_cal (s : State) (d : Nat) : (s.cellFailed d).cal = s.cal := by unfold State.cellFailed; split <;> simp
@[simp] theorem State.cellFailed_mst (s : State) (d : Nat) : (s.cellFailed d).mst = s.mst := by unfold State.cellFailed; split <;> simp
@[simp] theorem State.cellFailed_gpt (s : State) (d : Nat) : (s.cellFailed d).gpt = s.gpt := by unfold State.cellFailed; split <;> simp
@[simp] theorem State.cellFailed_settings (s : State) (d : Nat) : (s.cellFailed d).settings = s.settings := by unfold State.cellFailed; split <;> simp

/-! Cell faults (R14 to R17) -/

@[simp] theorem State.failCell_pending (s : State) (i : Nat) (r : CellFault) : (s.failCell i r).pending = s.pending := by unfold State.failCell; dsimp only; (repeat' split) <;> simp
@[simp] theorem State.failCell_powered (s : State) (i : Nat) (r : CellFault) : (s.failCell i r).powered = s.powered := by unfold State.failCell; dsimp only; (repeat' split) <;> simp
@[simp] theorem State.failCell_fpt (s : State) (i : Nat) (r : CellFault) : (s.failCell i r).fpt = s.fpt := by unfold State.failCell; dsimp only; (repeat' split) <;> simp
@[simp] theorem State.failCell_scn (s : State) (i : Nat) (r : CellFault) : (s.failCell i r).scn = s.scn := by unfold State.failCell; dsimp only; (repeat' split) <;> simp
@[simp] theorem State.failCell_axt (s : State) (i : Nat) (r : CellFault) : (s.failCell i r).axt = s.axt := by unfold State.failCell; dsimp only; (repeat' split) <;> simp
@[simp] theorem State.failCell_slc (s : State) (i : Nat) (r : CellFault) : (s.failCell i r).slc = s.slc := by unfold State.failCell; dsimp only; (repeat' split) <;> simp
@[simp] theorem State.failCell_classes (s : State) (i : Nat) (r : CellFault) : (s.failCell i r).classes = s.classes := by unfold State.failCell; dsimp only; (repeat' split) <;> simp
@[simp] theorem State.failCell_tku (s : State) (i : Nat) (r : CellFault) : (s.failCell i r).tku = s.tku := by unfold State.failCell; dsimp only; (repeat' split) <;> simp
@[simp] theorem State.failCell_aud (s : State) (i : Nat) (r : CellFault) : (s.failCell i r).aud = s.aud := by unfold State.failCell; dsimp only; (repeat' split) <;> simp
@[simp] theorem State.failCell_cal (s : State) (i : Nat) (r : CellFault) : (s.failCell i r).cal = s.cal := by unfold State.failCell; dsimp only; (repeat' split) <;> simp
@[simp] theorem State.failCell_mst (s : State) (i : Nat) (r : CellFault) : (s.failCell i r).mst = s.mst := by unfold State.failCell; dsimp only; (repeat' split) <;> simp
@[simp] theorem State.failCell_settings (s : State) (i : Nat) (r : CellFault) : (s.failCell i r).settings = s.settings := by unfold State.failCell; dsimp only; (repeat' split) <;> simp
@[simp] theorem State.failCell_gpt_inward (s : State) (i : Nat) (r : CellFault) : (s.failCell i r).gpt.inward = s.gpt.inward := by unfold State.failCell; dsimp only; (repeat' split) <;> simp
@[simp] theorem State.failCell_gpt_requests (s : State) (i : Nat) (r : CellFault) : (s.failCell i r).gpt.requests = s.gpt.requests := by unfold State.failCell; dsimp only; (repeat' split) <;> simp
@[simp] theorem State.failCell_gpt_responses (s : State) (i : Nat) (r : CellFault) : (s.failCell i r).gpt.responses = s.gpt.responses := by unfold State.failCell; dsimp only; (repeat' split) <;> simp
@[simp] theorem State.failCell_gpt_unanswered (s : State) (i : Nat) (r : CellFault) : (s.failCell i r).gpt.unanswered = s.gpt.unanswered := by unfold State.failCell; dsimp only; (repeat' split) <;> simp
@[simp] theorem State.failCell_gpt_fairness (s : State) (i : Nat) (r : CellFault) : (s.failCell i r).gpt.fairness = s.gpt.fairness := by unfold State.failCell; dsimp only; (repeat' split) <;> simp
@[simp] theorem State.failCell_gpt_lastReported (s : State) (i : Nat) (r : CellFault) : (s.failCell i r).gpt.lastReported = s.gpt.lastReported := by unfold State.failCell; dsimp only; (repeat' split) <;> simp
@[simp] theorem State.failCell_gpt_time (s : State) (i : Nat) (r : CellFault) : (s.failCell i r).gpt.time = s.gpt.time := by unfold State.failCell; dsimp only; (repeat' split) <;> simp
@[simp] theorem State.failCell_gpt_phase (s : State) (i : Nat) (r : CellFault) : (s.failCell i r).gpt.phase = s.gpt.phase := by unfold State.failCell; dsimp only; (repeat' split) <;> simp
@[simp] theorem State.failCell_gpt_lineOut (s : State) (i : Nat) (r : CellFault) : (s.failCell i r).gpt.lineOut = s.gpt.lineOut := by unfold State.failCell; dsimp only; (repeat' split) <;> simp
@[simp] theorem State.okReply_pending (s : State) (i : Nat) (raw : Int) : (s.okReply i raw).pending = s.pending := by unfold State.okReply; dsimp only; (repeat' split) <;> simp
@[simp] theorem State.okReply_powered (s : State) (i : Nat) (raw : Int) : (s.okReply i raw).powered = s.powered := by unfold State.okReply; dsimp only; (repeat' split) <;> simp
@[simp] theorem State.okReply_fpt (s : State) (i : Nat) (raw : Int) : (s.okReply i raw).fpt = s.fpt := by unfold State.okReply; dsimp only; (repeat' split) <;> simp
@[simp] theorem State.okReply_scn (s : State) (i : Nat) (raw : Int) : (s.okReply i raw).scn = s.scn := by unfold State.okReply; dsimp only; (repeat' split) <;> simp
@[simp] theorem State.okReply_decks (s : State) (i : Nat) (raw : Int) : (s.okReply i raw).decks = s.decks := by unfold State.okReply; dsimp only; (repeat' split) <;> simp
@[simp] theorem State.okReply_axt (s : State) (i : Nat) (raw : Int) : (s.okReply i raw).axt = s.axt := by unfold State.okReply; dsimp only; (repeat' split) <;> simp
@[simp] theorem State.okReply_slc (s : State) (i : Nat) (raw : Int) : (s.okReply i raw).slc = s.slc := by unfold State.okReply; dsimp only; (repeat' split) <;> simp
@[simp] theorem State.okReply_classes (s : State) (i : Nat) (raw : Int) : (s.okReply i raw).classes = s.classes := by unfold State.okReply; dsimp only; (repeat' split) <;> simp
@[simp] theorem State.okReply_tku (s : State) (i : Nat) (raw : Int) : (s.okReply i raw).tku = s.tku := by unfold State.okReply; dsimp only; (repeat' split) <;> simp
@[simp] theorem State.okReply_aud (s : State) (i : Nat) (raw : Int) : (s.okReply i raw).aud = s.aud := by unfold State.okReply; dsimp only; (repeat' split) <;> simp
@[simp] theorem State.okReply_cal (s : State) (i : Nat) (raw : Int) : (s.okReply i raw).cal = s.cal := by unfold State.okReply; dsimp only; (repeat' split) <;> simp
@[simp] theorem State.okReply_mst (s : State) (i : Nat) (raw : Int) : (s.okReply i raw).mst = s.mst := by unfold State.okReply; dsimp only; (repeat' split) <;> simp
@[simp] theorem State.okReply_settings (s : State) (i : Nat) (raw : Int) : (s.okReply i raw).settings = s.settings := by unfold State.okReply; dsimp only; (repeat' split) <;> simp
@[simp] theorem State.okReply_gpt_inward (s : State) (i : Nat) (raw : Int) : (s.okReply i raw).gpt.inward = s.gpt.inward := by unfold State.okReply; dsimp only; (repeat' split) <;> simp
@[simp] theorem State.okReply_gpt_requests (s : State) (i : Nat) (raw : Int) : (s.okReply i raw).gpt.requests = s.gpt.requests := by unfold State.okReply; dsimp only; (repeat' split) <;> simp
@[simp] theorem State.okReply_gpt_responses (s : State) (i : Nat) (raw : Int) : (s.okReply i raw).gpt.responses = s.gpt.responses := by unfold State.okReply; dsimp only; (repeat' split) <;> simp
@[simp] theorem State.okReply_gpt_unanswered (s : State) (i : Nat) (raw : Int) : (s.okReply i raw).gpt.unanswered = s.gpt.unanswered := by unfold State.okReply; dsimp only; (repeat' split) <;> simp
@[simp] theorem State.okReply_gpt_fairness (s : State) (i : Nat) (raw : Int) : (s.okReply i raw).gpt.fairness = s.gpt.fairness := by unfold State.okReply; dsimp only; (repeat' split) <;> simp
@[simp] theorem State.okReply_gpt_lastReported (s : State) (i : Nat) (raw : Int) : (s.okReply i raw).gpt.lastReported = s.gpt.lastReported := by unfold State.okReply; dsimp only; (repeat' split) <;> simp
@[simp] theorem State.okReply_gpt_time (s : State) (i : Nat) (raw : Int) : (s.okReply i raw).gpt.time = s.gpt.time := by unfold State.okReply; dsimp only; (repeat' split) <;> simp
@[simp] theorem State.okReply_gpt_phase (s : State) (i : Nat) (raw : Int) : (s.okReply i raw).gpt.phase = s.gpt.phase := by unfold State.okReply; dsimp only; (repeat' split) <;> simp
@[simp] theorem State.okReply_gpt_lineOut (s : State) (i : Nat) (raw : Int) : (s.okReply i raw).gpt.lineOut = s.gpt.lineOut := by unfold State.okReply; dsimp only; (repeat' split) <;> simp
@[simp] theorem State.badReply_pending (s : State) (i : Nat) (r : CellFault) : (s.badReply i r).pending = s.pending := by simp [State.badReply]
@[simp] theorem State.badReply_powered (s : State) (i : Nat) (r : CellFault) : (s.badReply i r).powered = s.powered := by simp [State.badReply]
@[simp] theorem State.badReply_fpt (s : State) (i : Nat) (r : CellFault) : (s.badReply i r).fpt = s.fpt := by simp [State.badReply]
@[simp] theorem State.badReply_scn (s : State) (i : Nat) (r : CellFault) : (s.badReply i r).scn = s.scn := by simp [State.badReply]
@[simp] theorem State.badReply_axt (s : State) (i : Nat) (r : CellFault) : (s.badReply i r).axt = s.axt := by simp [State.badReply]
@[simp] theorem State.badReply_slc (s : State) (i : Nat) (r : CellFault) : (s.badReply i r).slc = s.slc := by simp [State.badReply]
@[simp] theorem State.badReply_classes (s : State) (i : Nat) (r : CellFault) : (s.badReply i r).classes = s.classes := by simp [State.badReply]
@[simp] theorem State.badReply_tku (s : State) (i : Nat) (r : CellFault) : (s.badReply i r).tku = s.tku := by simp [State.badReply]
@[simp] theorem State.badReply_aud (s : State) (i : Nat) (r : CellFault) : (s.badReply i r).aud = s.aud := by simp [State.badReply]
@[simp] theorem State.badReply_cal (s : State) (i : Nat) (r : CellFault) : (s.badReply i r).cal = s.cal := by simp [State.badReply]
@[simp] theorem State.badReply_mst (s : State) (i : Nat) (r : CellFault) : (s.badReply i r).mst = s.mst := by simp [State.badReply]
@[simp] theorem State.badReply_settings (s : State) (i : Nat) (r : CellFault) : (s.badReply i r).settings = s.settings := by simp [State.badReply]
@[simp] theorem State.badReply_gpt_inward (s : State) (i : Nat) (r : CellFault) : (s.badReply i r).gpt.inward = s.gpt.inward := by simp [State.badReply]
@[simp] theorem State.badReply_gpt_requests (s : State) (i : Nat) (r : CellFault) : (s.badReply i r).gpt.requests = s.gpt.requests := by simp [State.badReply]
@[simp] theorem State.badReply_gpt_responses (s : State) (i : Nat) (r : CellFault) : (s.badReply i r).gpt.responses = s.gpt.responses := by simp [State.badReply]
@[simp] theorem State.badReply_gpt_unanswered (s : State) (i : Nat) (r : CellFault) : (s.badReply i r).gpt.unanswered = s.gpt.unanswered := by simp [State.badReply]
@[simp] theorem State.badReply_gpt_fairness (s : State) (i : Nat) (r : CellFault) : (s.badReply i r).gpt.fairness = s.gpt.fairness := by simp [State.badReply]
@[simp] theorem State.badReply_gpt_lastReported (s : State) (i : Nat) (r : CellFault) : (s.badReply i r).gpt.lastReported = s.gpt.lastReported := by simp [State.badReply]
@[simp] theorem State.badReply_gpt_time (s : State) (i : Nat) (r : CellFault) : (s.badReply i r).gpt.time = s.gpt.time := by simp [State.badReply]
@[simp] theorem State.badReply_gpt_phase (s : State) (i : Nat) (r : CellFault) : (s.badReply i r).gpt.phase = s.gpt.phase := by simp [State.badReply]
@[simp] theorem State.badReply_gpt_lineOut (s : State) (i : Nat) (r : CellFault) : (s.badReply i r).gpt.lineOut = s.gpt.lineOut := by simp [State.badReply]
@[simp] theorem State.missScan_pending (s : State) (i : Nat) : (s.missScan i).pending = s.pending := by unfold State.missScan; dsimp only; (repeat' split) <;> simp
@[simp] theorem State.missScan_powered (s : State) (i : Nat) : (s.missScan i).powered = s.powered := by unfold State.missScan; dsimp only; (repeat' split) <;> simp
@[simp] theorem State.missScan_fpt (s : State) (i : Nat) : (s.missScan i).fpt = s.fpt := by unfold State.missScan; dsimp only; (repeat' split) <;> simp
@[simp] theorem State.missScan_scn (s : State) (i : Nat) : (s.missScan i).scn = s.scn := by unfold State.missScan; dsimp only; (repeat' split) <;> simp
@[simp] theorem State.missScan_axt (s : State) (i : Nat) : (s.missScan i).axt = s.axt := by unfold State.missScan; dsimp only; (repeat' split) <;> simp
@[simp] theorem State.missScan_slc (s : State) (i : Nat) : (s.missScan i).slc = s.slc := by unfold State.missScan; dsimp only; (repeat' split) <;> simp
@[simp] theorem State.missScan_classes (s : State) (i : Nat) : (s.missScan i).classes = s.classes := by unfold State.missScan; dsimp only; (repeat' split) <;> simp
@[simp] theorem State.missScan_tku (s : State) (i : Nat) : (s.missScan i).tku = s.tku := by unfold State.missScan; dsimp only; (repeat' split) <;> simp
@[simp] theorem State.missScan_aud (s : State) (i : Nat) : (s.missScan i).aud = s.aud := by unfold State.missScan; dsimp only; (repeat' split) <;> simp
@[simp] theorem State.missScan_cal (s : State) (i : Nat) : (s.missScan i).cal = s.cal := by unfold State.missScan; dsimp only; (repeat' split) <;> simp
@[simp] theorem State.missScan_mst (s : State) (i : Nat) : (s.missScan i).mst = s.mst := by unfold State.missScan; dsimp only; (repeat' split) <;> simp
@[simp] theorem State.missScan_settings (s : State) (i : Nat) : (s.missScan i).settings = s.settings := by unfold State.missScan; dsimp only; (repeat' split) <;> simp
@[simp] theorem State.missScan_gpt_inward (s : State) (i : Nat) : (s.missScan i).gpt.inward = s.gpt.inward := by unfold State.missScan; dsimp only; (repeat' split) <;> simp
@[simp] theorem State.missScan_gpt_requests (s : State) (i : Nat) : (s.missScan i).gpt.requests = s.gpt.requests := by unfold State.missScan; dsimp only; (repeat' split) <;> simp
@[simp] theorem State.missScan_gpt_responses (s : State) (i : Nat) : (s.missScan i).gpt.responses = s.gpt.responses := by unfold State.missScan; dsimp only; (repeat' split) <;> simp
@[simp] theorem State.missScan_gpt_unanswered (s : State) (i : Nat) : (s.missScan i).gpt.unanswered = s.gpt.unanswered := by unfold State.missScan; dsimp only; (repeat' split) <;> simp
@[simp] theorem State.missScan_gpt_fairness (s : State) (i : Nat) : (s.missScan i).gpt.fairness = s.gpt.fairness := by unfold State.missScan; dsimp only; (repeat' split) <;> simp
@[simp] theorem State.missScan_gpt_lastReported (s : State) (i : Nat) : (s.missScan i).gpt.lastReported = s.gpt.lastReported := by unfold State.missScan; dsimp only; (repeat' split) <;> simp
@[simp] theorem State.missScan_gpt_time (s : State) (i : Nat) : (s.missScan i).gpt.time = s.gpt.time := by unfold State.missScan; dsimp only; (repeat' split) <;> simp
@[simp] theorem State.missScan_gpt_phase (s : State) (i : Nat) : (s.missScan i).gpt.phase = s.gpt.phase := by unfold State.missScan; dsimp only; (repeat' split) <;> simp
@[simp] theorem State.missScan_gpt_lineOut (s : State) (i : Nat) : (s.missScan i).gpt.lineOut = s.gpt.lineOut := by unfold State.missScan; dsimp only; (repeat' split) <;> simp

/-! Deck sums (R27, R28, R172) -/

@[simp] theorem State.capturePoint_pending (s : State) (d : Nat) : (s.capturePoint d).pending = s.pending := by unfold State.capturePoint; (repeat' split) <;> rfl
@[simp] theorem State.capturePoint_powered (s : State) (d : Nat) : (s.capturePoint d).powered = s.powered := by unfold State.capturePoint; (repeat' split) <;> rfl
@[simp] theorem State.capturePoint_fpt (s : State) (d : Nat) : (s.capturePoint d).fpt = s.fpt := by unfold State.capturePoint; (repeat' split) <;> rfl
@[simp] theorem State.capturePoint_scn (s : State) (d : Nat) : (s.capturePoint d).scn = s.scn := by unfold State.capturePoint; (repeat' split) <;> rfl
@[simp] theorem State.capturePoint_cells (s : State) (d : Nat) : (s.capturePoint d).cells = s.cells := by unfold State.capturePoint; (repeat' split) <;> rfl
@[simp] theorem State.capturePoint_decks (s : State) (d : Nat) : (s.capturePoint d).decks = s.decks := by unfold State.capturePoint; (repeat' split) <;> rfl
@[simp] theorem State.capturePoint_axt (s : State) (d : Nat) : (s.capturePoint d).axt = s.axt := by unfold State.capturePoint; (repeat' split) <;> rfl
@[simp] theorem State.capturePoint_slc (s : State) (d : Nat) : (s.capturePoint d).slc = s.slc := by unfold State.capturePoint; (repeat' split) <;> rfl
@[simp] theorem State.capturePoint_classes (s : State) (d : Nat) : (s.capturePoint d).classes = s.classes := by unfold State.capturePoint; (repeat' split) <;> rfl
@[simp] theorem State.capturePoint_tku (s : State) (d : Nat) : (s.capturePoint d).tku = s.tku := by unfold State.capturePoint; (repeat' split) <;> rfl
@[simp] theorem State.capturePoint_cal (s : State) (d : Nat) : (s.capturePoint d).cal = s.cal := by unfold State.capturePoint; (repeat' split) <;> rfl
@[simp] theorem State.capturePoint_mst (s : State) (d : Nat) : (s.capturePoint d).mst = s.mst := by unfold State.capturePoint; (repeat' split) <;> rfl
@[simp] theorem State.capturePoint_gpt (s : State) (d : Nat) : (s.capturePoint d).gpt = s.gpt := by unfold State.capturePoint; (repeat' split) <;> rfl
@[simp] theorem State.capturePoint_settings (s : State) (d : Nat) : (s.capturePoint d).settings = s.settings := by unfold State.capturePoint; (repeat' split) <;> rfl
@[simp] theorem State.deckSum_pending (s : State) (d : Nat) (x : Int) : (s.deckSum d x).pending = s.pending := by unfold State.deckSum; dsimp only; (repeat' split) <;> simp
@[simp] theorem State.deckSum_powered (s : State) (d : Nat) (x : Int) : (s.deckSum d x).powered = s.powered := by unfold State.deckSum; dsimp only; (repeat' split) <;> simp
@[simp] theorem State.deckSum_fpt (s : State) (d : Nat) (x : Int) : (s.deckSum d x).fpt = s.fpt := by unfold State.deckSum; dsimp only; (repeat' split) <;> simp
@[simp] theorem State.deckSum_scn (s : State) (d : Nat) (x : Int) : (s.deckSum d x).scn = s.scn := by unfold State.deckSum; dsimp only; (repeat' split) <;> simp
@[simp] theorem State.deckSum_cells (s : State) (d : Nat) (x : Int) : (s.deckSum d x).cells = s.cells := by unfold State.deckSum; dsimp only; (repeat' split) <;> simp
@[simp] theorem State.deckSum_axt (s : State) (d : Nat) (x : Int) : (s.deckSum d x).axt = s.axt := by unfold State.deckSum; dsimp only; (repeat' split) <;> simp
@[simp] theorem State.deckSum_classes (s : State) (d : Nat) (x : Int) : (s.deckSum d x).classes = s.classes := by unfold State.deckSum; dsimp only; (repeat' split) <;> simp
@[simp] theorem State.deckSum_tku (s : State) (d : Nat) (x : Int) : (s.deckSum d x).tku = s.tku := by unfold State.deckSum; dsimp only; (repeat' split) <;> simp
@[simp] theorem State.deckSum_cal (s : State) (d : Nat) (x : Int) : (s.deckSum d x).cal = s.cal := by unfold State.deckSum; dsimp only; (repeat' split) <;> simp
@[simp] theorem State.deckSum_mst (s : State) (d : Nat) (x : Int) : (s.deckSum d x).mst = s.mst := by unfold State.deckSum; dsimp only; (repeat' split) <;> simp
@[simp] theorem State.deckSum_gpt (s : State) (d : Nat) (x : Int) : (s.deckSum d x).gpt = s.gpt := by unfold State.deckSum; dsimp only; (repeat' split) <;> simp
@[simp] theorem State.deckSum_settings (s : State) (d : Nat) (x : Int) : (s.deckSum d x).settings = s.settings := by unfold State.deckSum; dsimp only; (repeat' split) <;> simp
@[simp] theorem State.deckSum_slc_commitMark (s : State) (d : Nat) (x : Int) : (s.deckSum d x).slc.commitMark = s.slc.commitMark := by unfold State.deckSum; dsimp only; (repeat' split) <;> simp
@[simp] theorem State.deckSum_slc_slot0 (s : State) (d : Nat) (x : Int) : (s.deckSum d x).slc.slot0 = s.slc.slot0 := by unfold State.deckSum; dsimp only; (repeat' split) <;> simp
@[simp] theorem State.deckSum_slc_slot1 (s : State) (d : Nat) (x : Int) : (s.deckSum d x).slc.slot1 = s.slc.slot1 := by unfold State.deckSum; dsimp only; (repeat' split) <;> simp
@[simp] theorem State.deckSum_slc_permits (s : State) (d : Nat) (x : Int) : (s.deckSum d x).slc.permits = s.slc.permits := by unfold State.deckSum; dsimp only; (repeat' split) <;> simp
@[simp] theorem State.deckSum_slc_bars (s : State) (d : Nat) (x : Int) : (s.deckSum d x).slc.bars = s.slc.bars := by unfold State.deckSum; dsimp only; (repeat' split) <;> simp
@[simp] theorem State.deckSum_slc_waiting (s : State) (d : Nat) (x : Int) : (s.deckSum d x).slc.waiting = s.slc.waiting := by unfold State.deckSum; dsimp only; (repeat' split) <;> simp
@[simp] theorem State.deckSum_slc_waitingTimer (s : State) (d : Nat) (x : Int) : (s.deckSum d x).slc.waitingTimer = s.slc.waitingTimer := by unfold State.deckSum; dsimp only; (repeat' split) <;> simp
@[simp] theorem State.deckScan_pending (s : State) (d : Nat) : (s.deckScan d).pending = s.pending := by unfold State.deckScan; dsimp only; (repeat' split) <;> simp
@[simp] theorem State.deckScan_powered (s : State) (d : Nat) : (s.deckScan d).powered = s.powered := by unfold State.deckScan; dsimp only; (repeat' split) <;> simp
@[simp] theorem State.deckScan_fpt (s : State) (d : Nat) : (s.deckScan d).fpt = s.fpt := by unfold State.deckScan; dsimp only; (repeat' split) <;> simp
@[simp] theorem State.deckScan_scn (s : State) (d : Nat) : (s.deckScan d).scn = s.scn := by unfold State.deckScan; dsimp only; (repeat' split) <;> simp
@[simp] theorem State.deckScan_axt (s : State) (d : Nat) : (s.deckScan d).axt = s.axt := by unfold State.deckScan; dsimp only; (repeat' split) <;> simp
@[simp] theorem State.deckScan_classes (s : State) (d : Nat) : (s.deckScan d).classes = s.classes := by unfold State.deckScan; dsimp only; (repeat' split) <;> simp
@[simp] theorem State.deckScan_tku (s : State) (d : Nat) : (s.deckScan d).tku = s.tku := by unfold State.deckScan; dsimp only; (repeat' split) <;> simp
@[simp] theorem State.deckScan_cal (s : State) (d : Nat) : (s.deckScan d).cal = s.cal := by unfold State.deckScan; dsimp only; (repeat' split) <;> simp
@[simp] theorem State.deckScan_mst (s : State) (d : Nat) : (s.deckScan d).mst = s.mst := by unfold State.deckScan; dsimp only; (repeat' split) <;> simp
@[simp] theorem State.deckScan_gpt (s : State) (d : Nat) : (s.deckScan d).gpt = s.gpt := by unfold State.deckScan; dsimp only; (repeat' split) <;> simp
@[simp] theorem State.deckScan_settings (s : State) (d : Nat) : (s.deckScan d).settings = s.settings := by unfold State.deckScan; dsimp only; (repeat' split) <;> simp
@[simp] theorem State.deckScan_slc_commitMark (s : State) (d : Nat) : (s.deckScan d).slc.commitMark = s.slc.commitMark := by unfold State.deckScan; dsimp only; (repeat' split) <;> simp
@[simp] theorem State.deckScan_slc_slot0 (s : State) (d : Nat) : (s.deckScan d).slc.slot0 = s.slc.slot0 := by unfold State.deckScan; dsimp only; (repeat' split) <;> simp
@[simp] theorem State.deckScan_slc_slot1 (s : State) (d : Nat) : (s.deckScan d).slc.slot1 = s.slc.slot1 := by unfold State.deckScan; dsimp only; (repeat' split) <;> simp
@[simp] theorem State.deckScan_slc_permits (s : State) (d : Nat) : (s.deckScan d).slc.permits = s.slc.permits := by unfold State.deckScan; dsimp only; (repeat' split) <;> simp
@[simp] theorem State.deckScan_slc_bars (s : State) (d : Nat) : (s.deckScan d).slc.bars = s.slc.bars := by unfold State.deckScan; dsimp only; (repeat' split) <;> simp
@[simp] theorem State.deckScan_slc_waiting (s : State) (d : Nat) : (s.deckScan d).slc.waiting = s.slc.waiting := by unfold State.deckScan; dsimp only; (repeat' split) <;> simp
@[simp] theorem State.deckScan_slc_waitingTimer (s : State) (d : Nat) : (s.deckScan d).slc.waitingTimer = s.slc.waitingTimer := by unfold State.deckScan; dsimp only; (repeat' split) <;> simp

/-! The working copies at a job's end (R115, R121, R126) -/

@[simp] theorem State.issue_pending (s : State) (n : Nat) : (s.issue n).pending = s.pending := rfl
@[simp] theorem State.issue_powered (s : State) (n : Nat) : (s.issue n).powered = s.powered := rfl
@[simp] theorem State.issue_fpt (s : State) (n : Nat) : (s.issue n).fpt = s.fpt := rfl
@[simp] theorem State.issue_scn (s : State) (n : Nat) : (s.issue n).scn = s.scn := rfl
@[simp] theorem State.issue_cells (s : State) (n : Nat) : (s.issue n).cells = s.cells := rfl
@[simp] theorem State.issue_decks (s : State) (n : Nat) : (s.issue n).decks = s.decks := rfl
@[simp] theorem State.issue_axt (s : State) (n : Nat) : (s.issue n).axt = s.axt := rfl
@[simp] theorem State.issue_slc (s : State) (n : Nat) : (s.issue n).slc = s.slc := rfl
@[simp] theorem State.issue_classes (s : State) (n : Nat) : (s.issue n).classes = s.classes := rfl
@[simp] theorem State.issue_aud (s : State) (n : Nat) : (s.issue n).aud = s.aud := rfl
@[simp] theorem State.issue_cal (s : State) (n : Nat) : (s.issue n).cal = s.cal := rfl
@[simp] theorem State.issue_mst (s : State) (n : Nat) : (s.issue n).mst = s.mst := rfl
@[simp] theorem State.issue_gpt (s : State) (n : Nat) : (s.issue n).gpt = s.gpt := rfl
@[simp] theorem State.issue_settings (s : State) (n : Nat) : (s.issue n).settings = s.settings := rfl
@[simp] theorem State.ringAdd_pending (s : State) (r : RingRec) : (s.ringAdd r).pending = s.pending := rfl
@[simp] theorem State.ringAdd_powered (s : State) (r : RingRec) : (s.ringAdd r).powered = s.powered := rfl
@[simp] theorem State.ringAdd_fpt (s : State) (r : RingRec) : (s.ringAdd r).fpt = s.fpt := rfl
@[simp] theorem State.ringAdd_scn (s : State) (r : RingRec) : (s.ringAdd r).scn = s.scn := rfl
@[simp] theorem State.ringAdd_cells (s : State) (r : RingRec) : (s.ringAdd r).cells = s.cells := rfl
@[simp] theorem State.ringAdd_decks (s : State) (r : RingRec) : (s.ringAdd r).decks = s.decks := rfl
@[simp] theorem State.ringAdd_axt (s : State) (r : RingRec) : (s.ringAdd r).axt = s.axt := rfl
@[simp] theorem State.ringAdd_slc (s : State) (r : RingRec) : (s.ringAdd r).slc = s.slc := rfl
@[simp] theorem State.ringAdd_classes (s : State) (r : RingRec) : (s.ringAdd r).classes = s.classes := rfl
@[simp] theorem State.ringAdd_aud (s : State) (r : RingRec) : (s.ringAdd r).aud = s.aud := rfl
@[simp] theorem State.ringAdd_cal (s : State) (r : RingRec) : (s.ringAdd r).cal = s.cal := rfl
@[simp] theorem State.ringAdd_mst (s : State) (r : RingRec) : (s.ringAdd r).mst = s.mst := rfl
@[simp] theorem State.ringAdd_gpt (s : State) (r : RingRec) : (s.ringAdd r).gpt = s.gpt := rfl
@[simp] theorem State.ringAdd_settings (s : State) (r : RingRec) : (s.ringAdd r).settings = s.settings := rfl
@[simp] theorem State.pendingAfter_pending (s : State) (r : Running) (c : Capture) : (s.pendingAfter r c).pending = s.pending := by unfold State.pendingAfter; (repeat' split) <;> rfl
@[simp] theorem State.pendingAfter_powered (s : State) (r : Running) (c : Capture) : (s.pendingAfter r c).powered = s.powered := by unfold State.pendingAfter; (repeat' split) <;> rfl
@[simp] theorem State.pendingAfter_fpt (s : State) (r : Running) (c : Capture) : (s.pendingAfter r c).fpt = s.fpt := by unfold State.pendingAfter; (repeat' split) <;> rfl
@[simp] theorem State.pendingAfter_scn (s : State) (r : Running) (c : Capture) : (s.pendingAfter r c).scn = s.scn := by unfold State.pendingAfter; (repeat' split) <;> rfl
@[simp] theorem State.pendingAfter_cells (s : State) (r : Running) (c : Capture) : (s.pendingAfter r c).cells = s.cells := by unfold State.pendingAfter; (repeat' split) <;> rfl
@[simp] theorem State.pendingAfter_decks (s : State) (r : Running) (c : Capture) : (s.pendingAfter r c).decks = s.decks := by unfold State.pendingAfter; (repeat' split) <;> rfl
@[simp] theorem State.pendingAfter_axt (s : State) (r : Running) (c : Capture) : (s.pendingAfter r c).axt = s.axt := by unfold State.pendingAfter; (repeat' split) <;> rfl
@[simp] theorem State.pendingAfter_slc (s : State) (r : Running) (c : Capture) : (s.pendingAfter r c).slc = s.slc := by unfold State.pendingAfter; (repeat' split) <;> rfl
@[simp] theorem State.pendingAfter_classes (s : State) (r : Running) (c : Capture) : (s.pendingAfter r c).classes = s.classes := by unfold State.pendingAfter; (repeat' split) <;> rfl
@[simp] theorem State.pendingAfter_aud (s : State) (r : Running) (c : Capture) : (s.pendingAfter r c).aud = s.aud := by unfold State.pendingAfter; (repeat' split) <;> rfl
@[simp] theorem State.pendingAfter_cal (s : State) (r : Running) (c : Capture) : (s.pendingAfter r c).cal = s.cal := by unfold State.pendingAfter; (repeat' split) <;> rfl
@[simp] theorem State.pendingAfter_mst (s : State) (r : Running) (c : Capture) : (s.pendingAfter r c).mst = s.mst := by unfold State.pendingAfter; (repeat' split) <;> rfl
@[simp] theorem State.pendingAfter_gpt (s : State) (r : Running) (c : Capture) : (s.pendingAfter r c).gpt = s.gpt := by unfold State.pendingAfter; (repeat' split) <;> rfl
@[simp] theorem State.pendingAfter_settings (s : State) (r : Running) (c : Capture) : (s.pendingAfter r c).settings = s.settings := by unfold State.pendingAfter; (repeat' split) <;> rfl
@[simp] theorem State.putPermit_pending (s : State) (i : Nat) (p : Permit) : (s.putPermit i p).pending = s.pending := by unfold State.putPermit State.refreshPermit; dsimp only [List.foldl]; (repeat' split) <;> simp
@[simp] theorem State.putPermit_powered (s : State) (i : Nat) (p : Permit) : (s.putPermit i p).powered = s.powered := by unfold State.putPermit State.refreshPermit; dsimp only [List.foldl]; (repeat' split) <;> simp
@[simp] theorem State.putPermit_fpt (s : State) (i : Nat) (p : Permit) : (s.putPermit i p).fpt = s.fpt := by unfold State.putPermit State.refreshPermit; dsimp only [List.foldl]; (repeat' split) <;> simp
@[simp] theorem State.putPermit_scn (s : State) (i : Nat) (p : Permit) : (s.putPermit i p).scn = s.scn := by unfold State.putPermit State.refreshPermit; dsimp only [List.foldl]; (repeat' split) <;> simp
@[simp] theorem State.putPermit_cells (s : State) (i : Nat) (p : Permit) : (s.putPermit i p).cells = s.cells := by unfold State.putPermit State.refreshPermit; dsimp only [List.foldl]; (repeat' split) <;> simp
@[simp] theorem State.putPermit_decks (s : State) (i : Nat) (p : Permit) : (s.putPermit i p).decks = s.decks := by unfold State.putPermit State.refreshPermit; dsimp only [List.foldl]; (repeat' split) <;> simp
@[simp] theorem State.putPermit_axt (s : State) (i : Nat) (p : Permit) : (s.putPermit i p).axt = s.axt := by unfold State.putPermit State.refreshPermit; dsimp only [List.foldl]; (repeat' split) <;> simp
@[simp] theorem State.putPermit_classes (s : State) (i : Nat) (p : Permit) : (s.putPermit i p).classes = s.classes := by unfold State.putPermit State.refreshPermit; dsimp only [List.foldl]; (repeat' split) <;> simp
@[simp] theorem State.putPermit_tku (s : State) (i : Nat) (p : Permit) : (s.putPermit i p).tku = s.tku := by unfold State.putPermit State.refreshPermit; dsimp only [List.foldl]; (repeat' split) <;> simp
@[simp] theorem State.putPermit_aud (s : State) (i : Nat) (p : Permit) : (s.putPermit i p).aud = s.aud := by unfold State.putPermit State.refreshPermit; dsimp only [List.foldl]; (repeat' split) <;> simp
@[simp] theorem State.putPermit_cal (s : State) (i : Nat) (p : Permit) : (s.putPermit i p).cal = s.cal := by unfold State.putPermit State.refreshPermit; dsimp only [List.foldl]; (repeat' split) <;> simp
@[simp] theorem State.putPermit_mst (s : State) (i : Nat) (p : Permit) : (s.putPermit i p).mst = s.mst := by unfold State.putPermit State.refreshPermit; dsimp only [List.foldl]; (repeat' split) <;> simp
@[simp] theorem State.putPermit_gpt (s : State) (i : Nat) (p : Permit) : (s.putPermit i p).gpt = s.gpt := by unfold State.putPermit State.refreshPermit; dsimp only [List.foldl]; (repeat' split) <;> simp
@[simp] theorem State.putPermit_settings (s : State) (i : Nat) (p : Permit) : (s.putPermit i p).settings = s.settings := by unfold State.putPermit State.refreshPermit; dsimp only [List.foldl]; (repeat' split) <;> simp
@[simp] theorem State.putPermit_slc_claims (s : State) (i : Nat) (p : Permit) : (s.putPermit i p).slc.claims = s.slc.claims := by unfold State.putPermit State.refreshPermit; dsimp only [List.foldl]; (repeat' split) <;> simp
@[simp] theorem State.putPermit_slc_commitMark (s : State) (i : Nat) (p : Permit) : (s.putPermit i p).slc.commitMark = s.slc.commitMark := by unfold State.putPermit State.refreshPermit; dsimp only [List.foldl]; (repeat' split) <;> simp
@[simp] theorem State.putPermit_slc_bars (s : State) (i : Nat) (p : Permit) : (s.putPermit i p).slc.bars = s.slc.bars := by unfold State.putPermit State.refreshPermit; dsimp only [List.foldl]; (repeat' split) <;> simp
@[simp] theorem State.putPermit_slc_waiting (s : State) (i : Nat) (p : Permit) : (s.putPermit i p).slc.waiting = s.slc.waiting := by unfold State.putPermit State.refreshPermit; dsimp only [List.foldl]; (repeat' split) <;> simp
@[simp] theorem State.putPermit_slc_waitingTimer (s : State) (i : Nat) (p : Permit) : (s.putPermit i p).slc.waitingTimer = s.slc.waitingTimer := by unfold State.putPermit State.refreshPermit; dsimp only [List.foldl]; (repeat' split) <;> simp
@[simp] theorem State.tareAfter_pending (s : State) (r : Running) (c : Capture) : (s.tareAfter r c).pending = s.pending := by unfold State.tareAfter; (repeat' split) <;> simp
@[simp] theorem State.tareAfter_powered (s : State) (r : Running) (c : Capture) : (s.tareAfter r c).powered = s.powered := by unfold State.tareAfter; (repeat' split) <;> simp
@[simp] theorem State.tareAfter_fpt (s : State) (r : Running) (c : Capture) : (s.tareAfter r c).fpt = s.fpt := by unfold State.tareAfter; (repeat' split) <;> simp
@[simp] theorem State.tareAfter_scn (s : State) (r : Running) (c : Capture) : (s.tareAfter r c).scn = s.scn := by unfold State.tareAfter; (repeat' split) <;> simp
@[simp] theorem State.tareAfter_cells (s : State) (r : Running) (c : Capture) : (s.tareAfter r c).cells = s.cells := by unfold State.tareAfter; (repeat' split) <;> simp
@[simp] theorem State.tareAfter_decks (s : State) (r : Running) (c : Capture) : (s.tareAfter r c).decks = s.decks := by unfold State.tareAfter; (repeat' split) <;> simp
@[simp] theorem State.tareAfter_axt (s : State) (r : Running) (c : Capture) : (s.tareAfter r c).axt = s.axt := by unfold State.tareAfter; (repeat' split) <;> simp
@[simp] theorem State.tareAfter_classes (s : State) (r : Running) (c : Capture) : (s.tareAfter r c).classes = s.classes := by unfold State.tareAfter; (repeat' split) <;> simp
@[simp] theorem State.tareAfter_tku (s : State) (r : Running) (c : Capture) : (s.tareAfter r c).tku = s.tku := by unfold State.tareAfter; (repeat' split) <;> simp
@[simp] theorem State.tareAfter_aud (s : State) (r : Running) (c : Capture) : (s.tareAfter r c).aud = s.aud := by unfold State.tareAfter; (repeat' split) <;> simp
@[simp] theorem State.tareAfter_cal (s : State) (r : Running) (c : Capture) : (s.tareAfter r c).cal = s.cal := by unfold State.tareAfter; (repeat' split) <;> simp
@[simp] theorem State.tareAfter_mst (s : State) (r : Running) (c : Capture) : (s.tareAfter r c).mst = s.mst := by unfold State.tareAfter; (repeat' split) <;> simp
@[simp] theorem State.tareAfter_gpt (s : State) (r : Running) (c : Capture) : (s.tareAfter r c).gpt = s.gpt := by unfold State.tareAfter; (repeat' split) <;> simp
@[simp] theorem State.tareAfter_settings (s : State) (r : Running) (c : Capture) : (s.tareAfter r c).settings = s.settings := by unfold State.tareAfter; (repeat' split) <;> simp
@[simp] theorem State.tareAfter_slc_claims (s : State) (r : Running) (c : Capture) : (s.tareAfter r c).slc.claims = s.slc.claims := by unfold State.tareAfter; (repeat' split) <;> simp
@[simp] theorem State.tareAfter_slc_commitMark (s : State) (r : Running) (c : Capture) : (s.tareAfter r c).slc.commitMark = s.slc.commitMark := by unfold State.tareAfter; (repeat' split) <;> simp
@[simp] theorem State.tareAfter_slc_bars (s : State) (r : Running) (c : Capture) : (s.tareAfter r c).slc.bars = s.slc.bars := by unfold State.tareAfter; (repeat' split) <;> simp
@[simp] theorem State.tareAfter_slc_waiting (s : State) (r : Running) (c : Capture) : (s.tareAfter r c).slc.waiting = s.slc.waiting := by unfold State.tareAfter; (repeat' split) <;> simp
@[simp] theorem State.tareAfter_slc_waitingTimer (s : State) (r : Running) (c : Capture) : (s.tareAfter r c).slc.waitingTimer = s.slc.waitingTimer := by unfold State.tareAfter; (repeat' split) <;> simp
@[simp] theorem State.giveStanding_pending (s : State) (d : Nat) (v : Standing) : (s.giveStanding d v).pending = s.pending := rfl
@[simp] theorem State.giveStanding_powered (s : State) (d : Nat) (v : Standing) : (s.giveStanding d v).powered = s.powered := rfl
@[simp] theorem State.giveStanding_fpt (s : State) (d : Nat) (v : Standing) : (s.giveStanding d v).fpt = s.fpt := rfl
@[simp] theorem State.giveStanding_scn (s : State) (d : Nat) (v : Standing) : (s.giveStanding d v).scn = s.scn := rfl
@[simp] theorem State.giveStanding_cells (s : State) (d : Nat) (v : Standing) : (s.giveStanding d v).cells = s.cells := rfl
@[simp] theorem State.giveStanding_decks (s : State) (d : Nat) (v : Standing) : (s.giveStanding d v).decks = s.decks := rfl
@[simp] theorem State.giveStanding_axt (s : State) (d : Nat) (v : Standing) : (s.giveStanding d v).axt = s.axt := rfl
@[simp] theorem State.giveStanding_slc (s : State) (d : Nat) (v : Standing) : (s.giveStanding d v).slc = s.slc := rfl
@[simp] theorem State.giveStanding_classes (s : State) (d : Nat) (v : Standing) : (s.giveStanding d v).classes = s.classes := rfl
@[simp] theorem State.giveStanding_tku (s : State) (d : Nat) (v : Standing) : (s.giveStanding d v).tku = s.tku := rfl
@[simp] theorem State.giveStanding_cal (s : State) (d : Nat) (v : Standing) : (s.giveStanding d v).cal = s.cal := rfl
@[simp] theorem State.giveStanding_mst (s : State) (d : Nat) (v : Standing) : (s.giveStanding d v).mst = s.mst := rfl
@[simp] theorem State.giveStanding_gpt (s : State) (d : Nat) (v : Standing) : (s.giveStanding d v).gpt = s.gpt := rfl
@[simp] theorem State.giveStanding_settings (s : State) (d : Nat) (v : Standing) : (s.giveStanding d v).settings = s.settings := rfl
@[simp] theorem State.closeStandings_pending (s : State) (r : Running) (c : CloseCapture) : (s.closeStandings r c).pending = s.pending := by
  unfold State.closeStandings
  exact foldl_keeps (fun s => s.pending) _ (fun s d => by split <;> simp) _ _
@[simp] theorem State.closeStandings_powered (s : State) (r : Running) (c : CloseCapture) : (s.closeStandings r c).powered = s.powered := by
  unfold State.closeStandings
  exact foldl_keeps (fun s => s.powered) _ (fun s d => by split <;> simp) _ _
@[simp] theorem State.closeStandings_fpt (s : State) (r : Running) (c : CloseCapture) : (s.closeStandings r c).fpt = s.fpt := by
  unfold State.closeStandings
  exact foldl_keeps (fun s => s.fpt) _ (fun s d => by split <;> simp) _ _
@[simp] theorem State.closeStandings_scn (s : State) (r : Running) (c : CloseCapture) : (s.closeStandings r c).scn = s.scn := by
  unfold State.closeStandings
  exact foldl_keeps (fun s => s.scn) _ (fun s d => by split <;> simp) _ _
@[simp] theorem State.closeStandings_cells (s : State) (r : Running) (c : CloseCapture) : (s.closeStandings r c).cells = s.cells := by
  unfold State.closeStandings
  exact foldl_keeps (fun s => s.cells) _ (fun s d => by split <;> simp) _ _
@[simp] theorem State.closeStandings_decks (s : State) (r : Running) (c : CloseCapture) : (s.closeStandings r c).decks = s.decks := by
  unfold State.closeStandings
  exact foldl_keeps (fun s => s.decks) _ (fun s d => by split <;> simp) _ _
@[simp] theorem State.closeStandings_axt (s : State) (r : Running) (c : CloseCapture) : (s.closeStandings r c).axt = s.axt := by
  unfold State.closeStandings
  exact foldl_keeps (fun s => s.axt) _ (fun s d => by split <;> simp) _ _
@[simp] theorem State.closeStandings_slc (s : State) (r : Running) (c : CloseCapture) : (s.closeStandings r c).slc = s.slc := by
  unfold State.closeStandings
  exact foldl_keeps (fun s => s.slc) _ (fun s d => by split <;> simp) _ _
@[simp] theorem State.closeStandings_classes (s : State) (r : Running) (c : CloseCapture) : (s.closeStandings r c).classes = s.classes := by
  unfold State.closeStandings
  exact foldl_keeps (fun s => s.classes) _ (fun s d => by split <;> simp) _ _
@[simp] theorem State.closeStandings_tku (s : State) (r : Running) (c : CloseCapture) : (s.closeStandings r c).tku = s.tku := by
  unfold State.closeStandings
  exact foldl_keeps (fun s => s.tku) _ (fun s d => by split <;> simp) _ _
@[simp] theorem State.closeStandings_cal (s : State) (r : Running) (c : CloseCapture) : (s.closeStandings r c).cal = s.cal := by
  unfold State.closeStandings
  exact foldl_keeps (fun s => s.cal) _ (fun s d => by split <;> simp) _ _
@[simp] theorem State.closeStandings_mst (s : State) (r : Running) (c : CloseCapture) : (s.closeStandings r c).mst = s.mst := by
  unfold State.closeStandings
  exact foldl_keeps (fun s => s.mst) _ (fun s d => by split <;> simp) _ _
@[simp] theorem State.closeStandings_gpt (s : State) (r : Running) (c : CloseCapture) : (s.closeStandings r c).gpt = s.gpt := by
  unfold State.closeStandings
  exact foldl_keeps (fun s => s.gpt) _ (fun s d => by split <;> simp) _ _
@[simp] theorem State.closeStandings_settings (s : State) (r : Running) (c : CloseCapture) : (s.closeStandings r c).settings = s.settings := by
  unfold State.closeStandings
  exact foldl_keeps (fun s => s.settings) _ (fun s d => by split <;> simp) _ _
@[simp] theorem State.releaseAudit_pending (s : State) : (s.releaseAudit).pending = s.pending := by simp [State.releaseAudit]
@[simp] theorem State.releaseAudit_powered (s : State) : (s.releaseAudit).powered = s.powered := by simp [State.releaseAudit]
@[simp] theorem State.releaseAudit_fpt (s : State) : (s.releaseAudit).fpt = s.fpt := by simp [State.releaseAudit]
@[simp] theorem State.releaseAudit_scn (s : State) : (s.releaseAudit).scn = s.scn := by simp [State.releaseAudit]
@[simp] theorem State.releaseAudit_cells (s : State) : (s.releaseAudit).cells = s.cells := by simp [State.releaseAudit]
@[simp] theorem State.releaseAudit_decks (s : State) : (s.releaseAudit).decks = s.decks := by simp [State.releaseAudit]
@[simp] theorem State.releaseAudit_axt (s : State) : (s.releaseAudit).axt = s.axt := by simp [State.releaseAudit]
@[simp] theorem State.releaseAudit_classes (s : State) : (s.releaseAudit).classes = s.classes := by simp [State.releaseAudit]
@[simp] theorem State.releaseAudit_tku (s : State) : (s.releaseAudit).tku = s.tku := by simp [State.releaseAudit]
@[simp] theorem State.releaseAudit_aud (s : State) : (s.releaseAudit).aud = s.aud := by simp [State.releaseAudit]
@[simp] theorem State.releaseAudit_cal (s : State) : (s.releaseAudit).cal = s.cal := by simp [State.releaseAudit]
@[simp] theorem State.releaseAudit_mst (s : State) : (s.releaseAudit).mst = s.mst := by simp [State.releaseAudit]
@[simp] theorem State.releaseAudit_gpt (s : State) : (s.releaseAudit).gpt = s.gpt := by simp [State.releaseAudit]
@[simp] theorem State.releaseAudit_settings (s : State) : (s.releaseAudit).settings = s.settings := by simp [State.releaseAudit]
@[simp] theorem State.releaseAudit_slc_commitMark (s : State) : (s.releaseAudit).slc.commitMark = s.slc.commitMark := by simp [State.releaseAudit]
@[simp] theorem State.releaseAudit_slc_slot0 (s : State) : (s.releaseAudit).slc.slot0 = s.slc.slot0 := by simp [State.releaseAudit]
@[simp] theorem State.releaseAudit_slc_slot1 (s : State) : (s.releaseAudit).slc.slot1 = s.slc.slot1 := by simp [State.releaseAudit]
@[simp] theorem State.releaseAudit_slc_permits (s : State) : (s.releaseAudit).slc.permits = s.slc.permits := by simp [State.releaseAudit]
@[simp] theorem State.releaseAudit_slc_bars (s : State) : (s.releaseAudit).slc.bars = s.slc.bars := by simp [State.releaseAudit]
@[simp] theorem State.releaseAudit_slc_waiting (s : State) : (s.releaseAudit).slc.waiting = s.slc.waiting := by simp [State.releaseAudit]
@[simp] theorem State.releaseAudit_slc_waitingTimer (s : State) : (s.releaseAudit).slc.waitingTimer = s.slc.waitingTimer := by simp [State.releaseAudit]
@[simp] theorem State.countEvent_pending (s : State) (r : Running) (l : List LogItem) : (s.countEvent r l).pending = s.pending := by unfold State.countEvent; split <;> rfl
@[simp] theorem State.countEvent_powered (s : State) (r : Running) (l : List LogItem) : (s.countEvent r l).powered = s.powered := by unfold State.countEvent; split <;> rfl
@[simp] theorem State.countEvent_fpt (s : State) (r : Running) (l : List LogItem) : (s.countEvent r l).fpt = s.fpt := by unfold State.countEvent; split <;> rfl
@[simp] theorem State.countEvent_scn (s : State) (r : Running) (l : List LogItem) : (s.countEvent r l).scn = s.scn := by unfold State.countEvent; split <;> rfl
@[simp] theorem State.countEvent_cells (s : State) (r : Running) (l : List LogItem) : (s.countEvent r l).cells = s.cells := by unfold State.countEvent; split <;> rfl
@[simp] theorem State.countEvent_decks (s : State) (r : Running) (l : List LogItem) : (s.countEvent r l).decks = s.decks := by unfold State.countEvent; split <;> rfl
@[simp] theorem State.countEvent_axt (s : State) (r : Running) (l : List LogItem) : (s.countEvent r l).axt = s.axt := by unfold State.countEvent; split <;> rfl
@[simp] theorem State.countEvent_slc (s : State) (r : Running) (l : List LogItem) : (s.countEvent r l).slc = s.slc := by unfold State.countEvent; split <;> rfl
@[simp] theorem State.countEvent_classes (s : State) (r : Running) (l : List LogItem) : (s.countEvent r l).classes = s.classes := by unfold State.countEvent; split <;> rfl
@[simp] theorem State.countEvent_tku (s : State) (r : Running) (l : List LogItem) : (s.countEvent r l).tku = s.tku := by unfold State.countEvent; split <;> rfl
@[simp] theorem State.countEvent_aud (s : State) (r : Running) (l : List LogItem) : (s.countEvent r l).aud = s.aud := by unfold State.countEvent; split <;> rfl
@[simp] theorem State.countEvent_gpt (s : State) (r : Running) (l : List LogItem) : (s.countEvent r l).gpt = s.gpt := by unfold State.countEvent; split <;> rfl
@[simp] theorem State.countEvent_settings (s : State) (r : Running) (l : List LogItem) : (s.countEvent r l).settings = s.settings := by unfold State.countEvent; split <;> rfl
@[simp] theorem State.judgeRingLow_pending (s : State) (n : Nat) : (s.judgeRingLow n).pending = s.pending := by unfold State.judgeRingLow; split <;> simp
@[simp] theorem State.judgeRingLow_powered (s : State) (n : Nat) : (s.judgeRingLow n).powered = s.powered := by unfold State.judgeRingLow; split <;> simp
@[simp] theorem State.judgeRingLow_fpt (s : State) (n : Nat) : (s.judgeRingLow n).fpt = s.fpt := by unfold State.judgeRingLow; split <;> simp
@[simp] theorem State.judgeRingLow_scn (s : State) (n : Nat) : (s.judgeRingLow n).scn = s.scn := by unfold State.judgeRingLow; split <;> simp
@[simp] theorem State.judgeRingLow_cells (s : State) (n : Nat) : (s.judgeRingLow n).cells = s.cells := by unfold State.judgeRingLow; split <;> simp
@[simp] theorem State.judgeRingLow_decks (s : State) (n : Nat) : (s.judgeRingLow n).decks = s.decks := by unfold State.judgeRingLow; split <;> simp
@[simp] theorem State.judgeRingLow_axt (s : State) (n : Nat) : (s.judgeRingLow n).axt = s.axt := by unfold State.judgeRingLow; split <;> simp
@[simp] theorem State.judgeRingLow_slc (s : State) (n : Nat) : (s.judgeRingLow n).slc = s.slc := by unfold State.judgeRingLow; split <;> simp
@[simp] theorem State.judgeRingLow_classes (s : State) (n : Nat) : (s.judgeRingLow n).classes = s.classes := by unfold State.judgeRingLow; split <;> simp
@[simp] theorem State.judgeRingLow_tku (s : State) (n : Nat) : (s.judgeRingLow n).tku = s.tku := by unfold State.judgeRingLow; split <;> simp
@[simp] theorem State.judgeRingLow_aud (s : State) (n : Nat) : (s.judgeRingLow n).aud = s.aud := by unfold State.judgeRingLow; split <;> simp
@[simp] theorem State.judgeRingLow_cal (s : State) (n : Nat) : (s.judgeRingLow n).cal = s.cal := by unfold State.judgeRingLow; split <;> simp
@[simp] theorem State.judgeRingLow_mst (s : State) (n : Nat) : (s.judgeRingLow n).mst = s.mst := by unfold State.judgeRingLow; split <;> simp
@[simp] theorem State.judgeRingLow_settings (s : State) (n : Nat) : (s.judgeRingLow n).settings = s.settings := by unfold State.judgeRingLow; split <;> simp
@[simp] theorem State.judgeRingLow_gpt_inward (s : State) (n : Nat) : (s.judgeRingLow n).gpt.inward = s.gpt.inward := by unfold State.judgeRingLow; split <;> simp
@[simp] theorem State.judgeRingLow_gpt_requests (s : State) (n : Nat) : (s.judgeRingLow n).gpt.requests = s.gpt.requests := by unfold State.judgeRingLow; split <;> simp
@[simp] theorem State.judgeRingLow_gpt_responses (s : State) (n : Nat) : (s.judgeRingLow n).gpt.responses = s.gpt.responses := by unfold State.judgeRingLow; split <;> simp
@[simp] theorem State.judgeRingLow_gpt_unanswered (s : State) (n : Nat) : (s.judgeRingLow n).gpt.unanswered = s.gpt.unanswered := by unfold State.judgeRingLow; split <;> simp
@[simp] theorem State.judgeRingLow_gpt_fairness (s : State) (n : Nat) : (s.judgeRingLow n).gpt.fairness = s.gpt.fairness := by unfold State.judgeRingLow; split <;> simp
@[simp] theorem State.judgeRingLow_gpt_lastReported (s : State) (n : Nat) : (s.judgeRingLow n).gpt.lastReported = s.gpt.lastReported := by unfold State.judgeRingLow; split <;> simp
@[simp] theorem State.judgeRingLow_gpt_time (s : State) (n : Nat) : (s.judgeRingLow n).gpt.time = s.gpt.time := by unfold State.judgeRingLow; split <;> simp
@[simp] theorem State.judgeRingLow_gpt_phase (s : State) (n : Nat) : (s.judgeRingLow n).gpt.phase = s.gpt.phase := by unfold State.judgeRingLow; split <;> simp
@[simp] theorem State.judgeRingLow_gpt_lineOut (s : State) (n : Nat) : (s.judgeRingLow n).gpt.lineOut = s.gpt.lineOut := by unfold State.judgeRingLow; split <;> simp

end Sys2Proof.Machine
end

