-- ==== Sys2Proof/Laws/Ops.lean ====
section
/-! SUPPORT. The notice queue's bound of eight (R192), kept by every operation that raises notices; what an operation's
end leaves of each slot and deck; how requests and rows are executed; what the shapes of Safety.lean say of the functions
they spell. -/

namespace Sys2Proof.Machine

/-- The notice queue holds no more than eight. -/
def State.noticesOk (s : State) : Prop := s.gpt.notices.length ≤ 8

theorem State.raise_noticesOk (s : State) (n : Notice) (h : s.noticesOk) : (s.raise n).noticesOk := by
  unfold State.noticesOk State.raise at *
  split
  · simp; omega
  · exact h

/-- A fold keeps what each of its steps keeps. -/
theorem foldl_holds {β : Type} (P : State → Prop) (f : State → β → State) (h : ∀ s b, P s → P (f s b)) (l : List β)
    (s : State) (hs : P s) : P (l.foldl f s) := by
  induction l generalizing s with
  | nil => exact hs
  | cons b l ih => exact ih _ (h s b hs)

/-- The bound depends on the gatehouse port alone. -/
theorem State.noticesOk_of_gpt {s t : State} (h : s.noticesOk) (e : t.gpt = s.gpt) : t.noticesOk := by
  unfold State.noticesOk at *; rw [e]; exact h

theorem State.judgeMarks_noticesOk (s : State) (t : SlotId) (h : s.noticesOk) : (s.judgeMarks t).noticesOk := by
  unfold State.judgeMarks; dsimp only; split
  · exact raise_noticesOk _ _ (noticesOk_of_gpt h (by simp))
  · exact noticesOk_of_gpt h (by simp)

theorem State.finish_noticesOk (s0 s : State) (h : s.noticesOk) : (State.finish s0 s).noticesOk := by
  have h1 := judgeMarks_noticesOk _ .slot1 (judgeMarks_noticesOk _ .slot0 h)
  refine noticesOk_of_gpt h1 ?_
  unfold State.finish; dsimp only
  simp [foldl_keeps (fun s => s.gpt) (State.judgeDeck s0)]

theorem State.attach_noticesOk (s : State) (t : SlotId) (i : Identity) (h : s.noticesOk) :
    (s.attach t i).noticesOk := by
  unfold State.attach; dsimp only
  (repeat' split) <;>
    first
      | exact raise_noticesOk _ _ h
      | exact raise_noticesOk _ _ (noticesOk_of_gpt h (by simp))
      | exact noticesOk_of_gpt (raise_noticesOk _ _ (noticesOk_of_gpt h (State.setSlot_gpt _ _ _))) rfl
      | exact noticesOk_of_gpt h (by simp)

theorem State.openSlot_noticesOk (s : State) (t : SlotId) (h : s.noticesOk) : (s.openSlot t).noticesOk := by
  unfold State.openSlot; dsimp only
  split
  · exact noticesOk_of_gpt (attach_noticesOk _ _ _ (noticesOk_of_gpt h (by simp))) rfl
  · exact noticesOk_of_gpt h (by simp)

theorem State.latch_noticesOk (s : State) (i : Nat) (k : Monitor) (v : Int) (t : Threshold) (h : s.noticesOk) :
    (s.latch i k v t).noticesOk := by
  unfold State.latch; dsimp only
  (repeat' split) <;>
    first
      | exact h
      | exact raise_noticesOk _ _ (noticesOk_of_gpt h (by simp))

theorem State.monitor_noticesOk (s : State) (rs : List Reading) (h : s.noticesOk) : (s.monitor rs).noticesOk := by
  unfold State.monitor
  refine foldl_holds _ _ (fun s t hs => foldl_holds _ _ (fun s r hs => latch_noticesOk s _ _ _ t hs) rs s hs) _ _ ?_
  exact foldl_holds _ _ (fun s r hs => noticesOk_of_gpt hs (by simp)) rs s h

theorem State.cellFailed_noticesOk (s : State) (d : Nat) (h : s.noticesOk) : (s.cellFailed d).noticesOk :=
  noticesOk_of_gpt h (by simp)

theorem State.failCell_noticesOk (s : State) (i : Nat) (r : CellFault) (h : s.noticesOk) :
    (s.failCell i r).noticesOk := by
  unfold State.failCell; dsimp only
  (repeat' split) <;>
    first
      | exact h
      | exact cellFailed_noticesOk _ _ (raise_noticesOk _ _ (noticesOk_of_gpt h (by simp)))
      | exact raise_noticesOk _ _ (noticesOk_of_gpt h (by simp))
      | exact noticesOk_of_gpt h (by simp)

theorem State.okReply_noticesOk (s : State) (i : Nat) (raw : Int) (h : s.noticesOk) :
    (s.okReply i raw).noticesOk := by
  unfold State.okReply; dsimp only
  (repeat' split) <;>
    first
      | exact h
      | exact raise_noticesOk _ _ (noticesOk_of_gpt h (by simp))

theorem State.badReply_noticesOk (s : State) (i : Nat) (r : CellFault) (h : s.noticesOk) :
    (s.badReply i r).noticesOk :=
  failCell_noticesOk _ _ _ (noticesOk_of_gpt h (by simp))

theorem State.missScan_noticesOk (s : State) (i : Nat) (h : s.noticesOk) : (s.missScan i).noticesOk := by
  unfold State.missScan; dsimp only
  (repeat' split) <;>
    first
      | exact h
      | exact failCell_noticesOk _ _ _ (noticesOk_of_gpt h (by simp))

/-! ### What an operation's end leaves of slots and decks -/

theorem measured_modify (f : Deck → Deck) (h : ∀ k, (f k).measured = k.measured) (l : List Deck) (d : Nat) :
    (l.modify d f).map Deck.measured = l.map Deck.measured := by
  induction l generalizing d with
  | nil => cases d <;> rfl
  | cons k l ih => cases d <;> simp [List.modify_succ_cons, ih, h]

theorem State.judgeDeck_measured (s0 s : State) (d : Nat) :
    (State.judgeDeck s0 s d).decks.map Deck.measured = s.decks.map Deck.measured := by
  have settle : ∀ s : State, (s.judgeSettle d).decks.map Deck.measured = s.decks.map Deck.measured := fun s => by
    unfold State.judgeSettle
    rw [State.modDeck_decks]
    apply measured_modify; intro k; rfl
  have report : ∀ s : State, (State.judgeReport s0 s d).decks.map Deck.measured = s.decks.map Deck.measured := fun s => by
    unfold State.judgeReport
    (repeat' split) <;> first | rfl | (rw [State.modDeck_decks]; apply measured_modify; intro k; rfl)
  unfold State.judgeDeck; dsimp only
  rw [report]
  split
  · exact settle s
  · rfl

@[simp] theorem State.judgeMarks_decks' (s : State) (t : SlotId) : (s.judgeMarks t).decks = s.decks := by simp

/-- Deck by deck, an operation's end keeps all but the settle timer, checked mark, report mark and delay timer. -/
theorem State.finish_measured (s0 s : State) :
    (State.finish s0 s).decks.map Deck.measured = s.decks.map Deck.measured := by
  unfold State.finish; dsimp only
  rw [show ∀ x : State, x.judgeLanes.decks = x.decks from fun _ => rfl]
  rw [foldl_keeps (fun s => s.decks.map Deck.measured) (State.judgeDeck s0) (fun s d => judgeDeck_measured s0 s d)]
  simp

/-- An operation's end keeps what deck `d` has in a field it does not judge. -/
theorem State.finish_deck {α : Type} (g : Deck → α) (hg : ∀ k, g k.measured = g k) (s0 s : State) (d : Nat) :
    ((State.finish s0 s).decks[d]?).map g = (s.decks[d]?).map g := by
  have h := congrArg (fun l => (l[d]?).map g) (State.finish_measured s0 s)
  simpa [Function.comp_def, hg] using h

/-- An operation's end keeps the number of decks. -/
@[simp] theorem State.finish_decks_length (s0 s : State) : (State.finish s0 s).decks.length = s.decks.length := by
  have h := congrArg List.length (State.finish_measured s0 s)
  simpa using h

theorem State.setSlot_held (s : State) (t u : SlotId) (v : Slot) (h : v.held = (s.slot t).held) :
    ((s.setSlot t v).slot u).held = (s.slot u).held := by
  cases t <;> cases u <;> first | rfl | exact h

/-- `slot` depends on the slot controller alone. -/
theorem State.slot_of_slc {s t : State} (h : t.slc = s.slc) (u : SlotId) : t.slot u = s.slot u := by
  cases u <;> simp [State.slot, h]

theorem State.judgeMarks_held (s : State) (t u : SlotId) : ((s.judgeMarks t).slot u).held = (s.slot u).held := by
  unfold State.judgeMarks; dsimp only
  split
  · rw [slot_of_slc (State.raise_slc _ _)]; exact setSlot_held _ _ _ _ rfl
  · exact setSlot_held _ _ _ _ rfl

theorem State.judgeCheck_held (s0 s : State) (t u : SlotId) :
    ((State.judgeCheck s0 t s).slot u).held = (s.slot u).held := by
  unfold State.judgeCheck; dsimp only
  (repeat' split) <;> first | rfl | exact setSlot_held _ _ _ _ rfl

/-- Slot by slot, an operation's end keeps all but SPAN_BREACH, INTRUDED and the check. -/
theorem State.finish_held (s0 s : State) (u : SlotId) : ((State.finish s0 s).slot u).held = (s.slot u).held := by
  unfold State.finish; dsimp only
  have h : ∀ x : State, x.judgeLanes.slot u = x.slot u := fun x => slot_of_slc rfl u
  rw [h, slot_of_slc (foldl_keeps (fun s => s.slc) (State.judgeDeck s0) (fun s d => by simp) _ _)]
  simp [judgeCheck_held, judgeMarks_held]

/-- An operation's end keeps what slot `u` has in a field it does not judge. -/
theorem State.finish_slot {α : Type} (g : Slot → α) (hg : ∀ v, g v.held = g v) (s0 s : State) (u : SlotId) :
    g ((State.finish s0 s).slot u) = g (s.slot u) := by
  rw [← hg, finish_held, hg]

/-! ### Rows and requests -/

/-- A row that acts while the supply is good. -/
theorem whenPowered_on {s : State} (h : s.powered = true) (f : State → State) : whenPowered s f = .next (f s) := by
  simp [whenPowered, h]

/-- A row that acts while the supply is off changes nothing (R139, notes/assumptions/9). -/
theorem whenPowered_off {s : State} (h : s.powered = false) (f : State → State) : whenPowered s f = .next s := by
  simp [whenPowered, h]

/-- A request that may be executed is judged on the state without it, and answered (R186). -/
theorem execute_can {r : Request} {s : State} (h : s.canExecute r = true) (f : State → Answered) :
    execute r s f = .next ((f s.popRequest).1.answer r (f s.popRequest).2.1 (f s.popRequest).2.2) := by
  simp [execute, h]

/-- A request that may not be executed is left where it is (R186, notes/assumptions/4). -/
theorem execute_not {r : Request} {s : State} (h : s.canExecute r = false) (f : State → Answered) :
    execute r s f = .next s := by
  simp [execute, h]

/-- The whole of what executing a request can do. -/
theorem execute_next {r : Request} {s t : State} {f : State → Answered} (h : execute r s f = .next t) :
    (s.canExecute r = false ∧ t = s) ∨
    (s.canExecute r = true ∧ t = (f s.popRequest).1.answer r (f s.popRequest).2.1 (f s.popRequest).2.2) := by
  cases hc : s.canExecute r with
  | false => rw [execute_not hc] at h; cases h; exact .inl ⟨rfl, rfl⟩
  | true => rw [execute_can hc] at h; cases h; exact .inr ⟨rfl, rfl⟩

/-- What lets the port execute a request (R186). -/
theorem canExecute_iff (s : State) (r : Request) :
    s.canExecute r = true ↔ s.powered = true ∧ s.gpt.requests.head? = some r ∧ s.gpt.responses.length < 4 := by
  simp [State.canExecute, and_assoc]

/-! ### The shapes of Safety.lean and the functions they spell -/

/-- The decks of a slot's run are those it claims (R67). -/
theorem mem_runOf (s : State) (u : SlotId) (d : Nat) : d ∈ s.runOf u ↔ s.claimOf d = .slot u := by
  simp only [State.runOf, List.mem_filter, List.mem_range, beq_iff_eq, and_iff_right_iff_imp]
  intro h
  by_contra hn
  simp [State.claimOf, List.getElem?_eq_none (Nat.le_of_not_lt hn)] at h

/-- A run stands lowest deck first. -/
theorem runOf_rising (s : State) (u : SlotId) : (s.runOf u).Pairwise (· < ·) :=
  List.pairwise_lt_range.filter _

/-- The end decks of a run that rises are its least and its greatest. -/
theorem besideRun_iff (run : List Nat) (h : run.Pairwise (· < ·)) (d : Nat) :
    besideRun run d = true ↔ run = [] ∨ ∃ x ∈ run,
      (d + 1 = x ∧ (∀ y ∈ run, x ≤ y) ∨ d = x + 1 ∧ ∀ y ∈ run, y ≤ x) := by
  rcases eq_or_ne run [] with rfl | hne
  · simp [besideRun]
  obtain ⟨a, ha⟩ : ∃ a, run.head? = some a := ⟨_, List.head?_eq_some_head hne⟩
  obtain ⟨b, hb⟩ : ∃ b, run.getLast? = some b := ⟨_, List.getLast?_eq_some_getLast hne⟩
  have hlo : ∀ y ∈ run, a ≤ y := by
    cases run with
    | nil => exact absurd rfl hne
    | cons c l =>
      cases ha
      intro y hy
      rcases List.mem_cons.mp hy with rfl | hy
      · exact le_rfl
      · exact (List.rel_of_pairwise_cons h hy).le
  have hhi : ∀ y ∈ run, y ≤ b := by
    obtain ⟨l, rfl⟩ := List.getLast?_eq_some_iff.mp hb
    intro y hy
    rcases List.mem_append.mp hy with hy | hy
    · exact ((List.pairwise_append.mp h).2.2 y hy b (by simp)).le
    · exact (List.mem_singleton.mp hy).le
  have ham := List.mem_of_head? ha
  have hbm := List.mem_of_getLast? hb
  simp only [besideRun, ha, hb, Bool.or_eq_true, beq_iff_eq, hne, false_or]
  constructor
  · rintro (e | e)
    · exact ⟨a, ham, .inl ⟨e, hlo⟩⟩
    · exact ⟨b, hbm, .inr ⟨e, hhi⟩⟩
  · rintro ⟨x, hx, ⟨e, hl⟩ | ⟨e, hl⟩⟩
    · exact .inl (e.trans (le_antisymm (hl a ham) (hlo x hx)))
    · exact .inr (e.trans (congrArg (· + 1) (le_antisymm (hhi x hx) (hl b hbm))))

/-- What `claimable` says, by the conditions of R65. -/
theorem claimable_iff (s : State) (u : SlotId) (d : Nat) : s.claimable u d = true ↔ Claimable s u d := by
  have hrun : (s.runOf u = [] ↔ ∀ x, s.claimOf x ≠ .slot u) := by
    simp only [List.eq_nil_iff_forall_not_mem, mem_runOf, ne_eq]
  have htr : (!((s.decks[d]?.map (·.untracked)).getD false)) = true ↔ ∀ k, s.decks[d]? = some k → k.untracked = false := by
    cases s.decks[d]? <;> simp
  simp only [State.claimable, Bool.and_eq_true, decide_eq_true_eq, beq_iff_eq, htr, Bool.not_eq_true',
    besideRun_iff _ (runOf_rising s u), hrun, mem_runOf]
  exact ⟨fun ⟨⟨⟨⟨⟨h1, h2⟩, h3⟩, h4⟩, h5⟩, h6⟩ => ⟨h1, h2, h3, h4, h5, h6⟩,
    fun ⟨h1, h2, h3, h4, h5, h6⟩ => ⟨⟨⟨⟨⟨h1, h2⟩, h3⟩, h4⟩, h5⟩, h6⟩⟩

/-- The condition of a deck by its code (R34, R201). -/
theorem conditionCode_condition (s : State) (d : Nat) (k : Deck) :
    conditionCode (s.condition d k) = conditionByte s d k := by
  unfold State.condition Deck.condition conditionByte
  cases k.fault with
  | some _ => simp [conditionCode]
  | none =>
    cases k.zero with
    | none => simp [conditionCode]
    | some _ =>
      cases k.gross with
      | none => simp [conditionCode]
      | some g =>
        simp only [Option.isSome_none, Option.isNone_some, ne_eq, not_true_eq_false, reduceCtorEq, if_false,
          Bool.false_eq_true, Int.neg_mul]
        split
        · rfl
        · split <;> rfl

/-- Two conditions of one code are one. -/
theorem conditionCode_inj : ∀ a b, conditionCode a = conditionCode b → a = b := by
  rintro (_ | _) (_ | _) h <;> first | rfl | exact absurd h (by decide)

theorem deckSuspect_iff (s : State) (d : Nat) :
    s.deckSuspect d = true ↔ ∃ c ∈ s.cells, c.const.deck = d ∧ c.suspect = true := by
  simp [State.deckSuspect, State.cellsOf]

/-- What R43 watches of a deck differs exactly where `watch` does. -/
theorem reportDue_iff (s t : State) (d : Nat) {k k' : Deck} (h : s.decks[d]? = some k) (h' : t.decks[d]? = some k') :
    ReportDue s t d ↔ s.watch d ≠ t.watch d := by
  have hc : conditionByte s d k = conditionByte t d k' ↔ s.condition d k = t.condition d k' := by
    rw [← conditionCode_condition, ← conditionCode_condition]
    exact ⟨conditionCode_inj _ _, congrArg _⟩
  simp only [ReportDue, State.watch, h, h', Option.map_some, Option.some.injEq, exists_eq_left', forall_eq', ne_eq,
    ← deckSuspect_iff, ← Bool.eq_iff_iff, hc, Watched.mk.injEq]
  tauto

/-- What `ackCovered` says: a value no greater than that of an ACK job or a SERIAL-RESTORE queued, or of one held (R125,
R165). -/
theorem ackCovered_iff (s : State) (v : Nat) : s.ackCovered v = true ↔
    (∃ w, (.ack w ∈ s.mst.jobs ∨ .restore w ∈ s.mst.jobs) ∧ v ≤ w) ∨ ∃ w, s.tku.heldAck = some w ∧ v ≤ w := by
  simp only [State.ackCovered, List.any_append, Bool.or_eq_true, List.any_eq_true, List.mem_filterMap, decide_eq_true_eq,
    Option.mem_toList]
  refine or_congr_left ⟨?_, ?_⟩
  · rintro ⟨w, ⟨j, hj, e⟩, h⟩
    cases j <;> cases e
    · exact ⟨w, .inr hj, h⟩
    · exact ⟨w, .inl hj, h⟩
  · rintro ⟨w, hj | hj, h⟩ <;> exact ⟨w, ⟨_, hj, rfl⟩, h⟩

/-- What `ackWriting` says: a job is being written, and the one at the front is an ACK job. -/
theorem ackWriting_iff (s : State) : s.ackWriting = true ↔
    s.mst.running ≠ none ∧ ∃ w js, s.mst.jobs = .ack w :: js := by
  unfold State.ackWriting
  cases s.mst.running <;> cases s.mst.jobs with
  | nil => simp
  | cons j js => cases j <;> simp [Job.origin]

/-- An ACK job is queued. -/
theorem jobQueued_ack_iff (s : State) : s.jobQueued .ack = true ↔ ∃ w, .ack w ∈ s.mst.jobs := by
  simp only [State.jobQueued, List.any_eq_true, beq_iff_eq]
  refine ⟨?_, fun ⟨w, h⟩ => ⟨_, h, rfl⟩⟩
  rintro ⟨j, h, e⟩
  cases j <;> first | exact ⟨_, h⟩ | cases e

end Sys2Proof.Machine
end

