-- ==== Sys2Proof/Laws/Blocks.lean ====
section
/-! SUPPORT. Which blocks of the state each operation may touch (`SameBut`, Safety.lean): one lemma per operation. -/

namespace Sys2Proof.Machine

theorem SameBut.refl (bs : List Block) (s : State) : SameBut bs s s := by constructor <;> simp

theorem SameBut.trans {bs : List Block} {s t u : State} (h : SameBut bs s t) (k : SameBut bs t u) : SameBut bs s u where
  pending := k.pending.trans h.pending
  powered := k.powered.trans h.powered
  fpt n := (k.fpt n).trans (h.fpt n)
  scn n := (k.scn n).trans (h.scn n)
  cells n := (k.cells n).trans (h.cells n)
  decks n := (k.decks n).trans (h.decks n)
  axt n := (k.axt n).trans (h.axt n)
  slc n := (k.slc n).trans (h.slc n)
  classes n := (k.classes n).trans (h.classes n)
  tku n := (k.tku n).trans (h.tku n)
  aud n := (k.aud n).trans (h.aud n)
  cal n := (k.cal n).trans (h.cal n)
  mst n := (k.mst n).trans (h.mst n)
  gpt n := (k.gpt n).trans (h.gpt n)
  settings n := (k.settings n).trans (h.settings n)

/-- More blocks may be named than are touched. -/
theorem SameBut.mono {bs cs : List Block} {s t : State} (h : SameBut bs s t) (sub : ∀ b ∈ bs, b ∈ cs) :
    SameBut cs s t where
  pending := h.pending
  powered := h.powered
  fpt n := h.fpt fun m => n (sub _ m)
  scn n := h.scn fun m => n (sub _ m)
  cells n := h.cells fun m => n (sub _ m)
  decks n := h.decks fun m => n (sub _ m)
  axt n := h.axt fun m => n (sub _ m)
  slc n := h.slc fun m => n (sub _ m)
  classes n := h.classes fun m => n (sub _ m)
  tku n := h.tku fun m => n (sub _ m)
  aud n := h.aud fun m => n (sub _ m)
  cal n := h.cal fun m => n (sub _ m)
  mst n := h.mst fun m => n (sub _ m)
  gpt n := h.gpt fun m => n (sub _ m)
  settings n := h.settings fun m => n (sub _ m)

/-- Two operations one after the other. -/
theorem SameBut.step {bs cs ds : List Block} {s t u : State} (h : SameBut bs s t) (k : SameBut cs t u)
    (sb : ∀ b ∈ bs, b ∈ ds := by decide) (sc : ∀ b ∈ cs, b ∈ ds := by decide) : SameBut ds s u :=
  (h.mono sb).trans (k.mono sc)

theorem SameBut.fold {β : Type} (bs : List Block) (f : State → β → State) (h : ∀ s b, SameBut bs s (f s b)) (l : List β)
    (s : State) : SameBut bs s (l.foldl f s) := by
  induction l generalizing s with
  | nil => exact .refl _ _
  | cons b l ih => exact (h s b).trans (ih _)

theorem SameBut.ite {bs : List Block} {s a b : State} {c : Prop} [Decidable c] (h : SameBut bs s a) (k : SameBut bs s b) :
    SameBut bs s (if c then a else b) := by split <;> assumption

/-! ### Rows -/

theorem SameBut.whenPowered {bs : List Block} {s t : State} {f : State → State} (h : whenPowered s f = .next t)
    (hf : ∀ s, SameBut bs s (f s)) : SameBut bs s t := by
  unfold Machine.whenPowered at h
  split at h <;> cases h
  · exact hf _
  · exact .refl _ _

theorem SameBut.popRequest (s : State) : SameBut [.gpt] s s.popRequest := by constructor <;> simp

theorem SameBut.answer (s : State) (r : Request) (st : Status) (body : List Byte) :
    SameBut [.gpt] s (s.answer r st body) := by constructor <;> simp

theorem SameBut.execute {bs : List Block} {r : Request} {s t : State} {f : State → Answered}
    (h : execute r s f = .next t) (hg : Block.gpt ∈ bs) (hf : ∀ s, SameBut bs s (f s).1) : SameBut bs s t := by
  have sub : ∀ b ∈ [Block.gpt], b ∈ bs := fun b hb => by simp at hb; exact hb ▸ hg
  rcases execute_next h with ⟨_, rfl⟩ | ⟨_, rfl⟩
  · exact .refl _ _
  · exact (((SameBut.popRequest s).mono sub).trans (hf _)).trans ((SameBut.answer _ _ _ _).mono sub)

/-! ### Shared operations -/

theorem SameBut.raise (s : State) (n : Notice) : SameBut [.gpt] s (s.raise n) := by constructor <;> simp
theorem SameBut.modDeck (s : State) (d : Nat) (f : Deck → Deck) : SameBut [.decks] s (s.modDeck d f) := by
  constructor <;> simp
theorem SameBut.modCell (s : State) (i : Nat) (f : Cell → Cell) : SameBut [.cells] s (s.modCell i f) := by
  constructor <;> simp
theorem SameBut.setSlot (s : State) (t : SlotId) (v : Slot) : SameBut [.slc] s (s.setSlot t v) := by
  constructor <;> simp
theorem SameBut.setClaim (s : State) (d : Nat) (c : Claim) : SameBut [.slc] s (s.setClaim d c) := by
  constructor <;> simp
theorem SameBut.setLine (s : State) (l : List Entry) : SameBut [.axt] s (s.setLine l) := by constructor <;> simp
theorem SameBut.finish (s0 s : State) : SameBut endBlocks s (State.finish s0 s) := by constructor <;> simp [endBlocks]
theorem SameBut.refreshCheck (s : State) (t : SlotId) : SameBut [.slc] s (s.refreshCheck t) := by constructor <;> simp
theorem SameBut.attach (s : State) (t : SlotId) (i : Identity) : SameBut [.slc, .gpt] s (s.attach t i) := by
  constructor <;> simp
theorem SameBut.openSlot (s : State) (t : SlotId) : SameBut [.slc, .gpt] s (s.openSlot t) := by constructor <;> simp
theorem SameBut.abort (s : State) (t : SlotId) : SameBut [.slc] s (s.abort t) := by constructor <;> simp
theorem SameBut.slotMove (s : State) (t : SlotId) (r : Option Nat) : SameBut [.slc] s (s.slotMove t r) := by
  constructor <;> simp
theorem SameBut.offerDecks (s : State) : SameBut [.slc] s s.offerDecks := by constructor <;> simp
theorem SameBut.restart (s : State) (d : Nat) : SameBut [.cells, .decks] s (s.restart d) := by constructor <;> simp
theorem SameBut.monitor (s : State) (rs : List Reading) : SameBut [.cells, .gpt] s (s.monitor rs) := by
  constructor <;> simp
theorem SameBut.ackCell (s : State) (i : Nat) : SameBut [.cells] s (s.ackCell i) := by constructor <;> simp
theorem SameBut.failCell (s : State) (i : Nat) (r : CellFault) : SameBut [.cells, .decks, .gpt] s (s.failCell i r) := by
  constructor <;> simp
theorem SameBut.okReply (s : State) (i : Nat) (raw : Int) : SameBut [.cells, .gpt] s (s.okReply i raw) := by
  constructor <;> simp
theorem SameBut.badReply (s : State) (i : Nat) (r : CellFault) :
    SameBut [.cells, .decks, .gpt] s (s.badReply i r) := by constructor <;> simp
theorem SameBut.missScan (s : State) (i : Nat) : SameBut [.cells, .decks, .gpt] s (s.missScan i) := by
  constructor <;> simp
theorem SameBut.deckScan (s : State) (d : Nat) : SameBut [.cells, .decks, .slc, .aud] s (s.deckScan d) := by
  constructor <;> simp
theorem SameBut.submit (s : State) (j : Job) : SameBut [.mst] s (s.submit j) := by constructor <;> simp
theorem SameBut.beginNext (s : State) : SameBut [.mst] s s.beginNext := by constructor <;> simp
theorem SameBut.judgeRingLow (s : State) (n : Nat) : SameBut [.gpt] s (s.judgeRingLow n) := by constructor <;> simp
theorem SameBut.slotOutcome (s : State) (t : SlotId) (b : Bool) : SameBut [.slc] s (s.slotOutcome t b) := by
  constructor <;> simp
theorem SameBut.releaseAudit (s : State) : SameBut [.slc] s s.releaseAudit := by constructor <;> simp
theorem SameBut.closeRun (s : State) : SameBut [.aud] s s.closeRun := by constructor <;> simp
theorem SameBut.issue (s : State) (n : Nat) : SameBut [.tku] s (s.issue n) := by constructor <;> simp
theorem SameBut.ringAdd (s : State) (r : RingRec) : SameBut [.tku] s (s.ringAdd r) := by constructor <;> simp
theorem SameBut.pendingAfter (s : State) (r : Running) (c : Capture) : SameBut [.tku] s (s.pendingAfter r c) := by
  constructor <;> simp
theorem SameBut.putPermit (s : State) (i : Nat) (p : Permit) : SameBut [.slc] s (s.putPermit i p) := by
  constructor <;> simp
theorem SameBut.tareAfter (s : State) (r : Running) (c : Capture) : SameBut [.slc] s (s.tareAfter r c) := by
  constructor <;> simp
theorem SameBut.countEvent (s : State) (r : Running) (l : List LogItem) : SameBut [.cal, .mst] s (s.countEvent r l) := by
  constructor <;> simp

/-! ### Cells, decks and axles -/

theorem SameBut.zeroCheck (s : State) (d : Nat) : SameBut [.cells, .decks, .gpt] s (s.zeroCheck d) := by
  unfold State.zeroCheck
  extract_lets s1
  have h : SameBut [.cells, .gpt] s s1 := .monitor _ _
  clear_value s1
  (repeat' split) <;> first
    | exact h.mono (by decide)
    | exact h.step (ds := [.cells, .decks, .gpt]) (.modDeck _ _ _)
    | exact h.step (ds := [.cells, .decks, .gpt]) (.raise _ _)

theorem SameBut.closeScan (s : State) : SameBut [.cells, .decks, .gpt] s s.closeScan := by
  unfold State.closeScan
  exact .fold _ _ (fun s i => .missScan s i) _ _

theorem SameBut.openScan (s : State) (n : Byte) : SameBut [.scn, .cells, .decks, .fpt] s (s.openScan n) := by
  constructor <;> simp [State.openScan]

theorem SameBut.acceptReply (s : State) (i : Nat) (raw temperature : Int) (excitation status : Nat) :
    SameBut [.cells, .decks, .slc, .aud, .gpt] s (s.acceptReply i raw temperature excitation status) := by
  unfold State.acceptReply
  extract_lets st s1 s2 s3
  have h1 : SameBut [.cells, .gpt] s s1 := (SameBut.modCell _ _ _).mono (by decide)
  have h2 : SameBut [.cells, .gpt] s1 s2 := .monitor _ _
  have h3 : SameBut [.cells, .decks, .gpt] s2 s3 := by
    unfold s3
    cases st
    · exact (SameBut.okReply _ _ _).mono (by decide)
    · exact .badReply _ _ _
    · exact .badReply _ _ _
  have h := (h1.trans h2).step (ds := [.cells, .decks, .slc, .aud, .gpt]) h3
  clear_value s3
  split
  · exact .ite (h.trans ((SameBut.deckScan _ _).mono (by decide))) h
  · exact h

theorem SameBut.takeCell (s : State) (node scan : Byte) (raw : BitVec 24) (t e : BitVec 16) (st : Byte) :
    SameBut ([.scn, .cells, .aud] ++ endBlocks) s (s.takeCell node scan raw t e st) := by
  unfold State.takeCell
  (repeat' split) <;> first
    | exact (SameBut.acceptReply _ _ _ _ _ _).step (.finish _ _)
    | (constructor <;> simp)

theorem SameBut.untrackedCrossing (s : State) (d : Nat) : SameBut [.axt, .aud] s (s.untrackedCrossing d) := by
  unfold State.untrackedCrossing; split <;> constructor <;> simp

/-- The blocks the attribution of a crossing may touch. -/
def crossingBlocks : List Block := [.axt, .slc, .aud, .gpt]

theorem SameBut.joinSlot (s : State) (f : Bool) (t : SlotId) (d n : Nat) (b : Bool) :
    SameBut crossingBlocks s (s.joinSlot f t d n b).state := by
  unfold State.joinSlot
  split
  · constructor <;> simp [crossingBlocks]
  · exact (SameBut.setLine _ _).step (.setSlot _ _ _)
  · exact (SameBut.untrackedCrossing _ _).mono (by decide)

theorem SameBut.addStray (s : State) (f : Bool) (d : Nat) (c : IntrusionCause) :
    SameBut crossingBlocks s (s.addStray f d c).state := by
  unfold State.addStray
  split
  · exact (SameBut.setLine _ _).step (.raise _ _)
  · exact (SameBut.untrackedCrossing _ _).mono (by decide)

theorem SameBut.enterBridge (s : State) (n : Nat) (b : Bool) : SameBut crossingBlocks s (s.enterBridge n b).state := by
  unfold State.enterBridge
  (repeat' split) <;> first
    | exact .joinSlot _ _ _ _ _ _
    | exact .addStray _ _ _ _
    | exact (SameBut.openSlot _ _).step (.joinSlot _ _ _ _ _ _)

theorem SameBut.returnBridge (s : State) (d n : Nat) (b : Bool) :
    SameBut crossingBlocks s (s.returnBridge d n b).state := by
  unfold State.returnBridge
  split <;> first | exact .joinSlot _ _ _ _ _ _ | exact .addStray _ _ _ _

theorem SameBut.removeEntry (s : State) (i : Nat) : SameBut crossingBlocks s (s.removeEntry i).state :=
  (SameBut.setLine _ _).mono (by decide)

theorem SameBut.moveEntry (s : State) (i d n : Nat) (b : Bool) : SameBut crossingBlocks s (s.moveEntry i d n b).state := by
  unfold State.moveEntry; dsimp only
  split
  · exact (SameBut.setLine _ _).step (.raise _ _)
  · exact (SameBut.setLine _ _).mono (by decide)

theorem SameBut.attribute (s : State) (b : Nat) (dir : Dir) (n : Nat) (sus : Bool) :
    SameBut crossingBlocks s (s.attribute b dir n sus).state := by
  unfold State.attribute; dsimp only
  (repeat' split) <;> first
    | exact .enterBridge _ _ _
    | exact .returnBridge _ _ _ _
    | exact .removeEntry _ _
    | exact .moveEntry _ _ _ _ _
    | exact (SameBut.untrackedCrossing _ _).mono (by decide)

theorem SameBut.modAxle (s : State) (n : Nat) (f : AxleRec → AxleRec) : SameBut [.axt] s (s.modAxle n f) :=
  .setLine _ _

theorem SameBut.clearFront (s : State) (t : SlotId) : SameBut [.axt] s (s.clearFront t) := by
  unfold State.clearFront; split
  · exact .modAxle _ _ _
  · exact .refl _ _

theorem SameBut.recordCrossing (s : State) (b : Nat) (c : Crossing) (l : Option Nat) :
    SameBut [.axt] s (s.recordCrossing b c l) := by
  unfold State.recordCrossing
  extract_lets s1
  have h : SameBut [.axt] s s1 := by
    unfold s1; split
    · exact .modAxle _ _ _
    · exact .refl _ _
  clear_value s1
  exact h.trans (by constructor <;> simp)

theorem SameBut.takeCrossing (s : State) (b : Nat) (tA tB : BitVec 32) (st : Byte) :
    SameBut ([.axt, .aud] ++ endBlocks) s (s.takeCrossing b tA tB st) := by
  unfold State.takeCrossing
  generalize crossingOf tA tB = cr
  obtain ⟨dir, n⟩ := cr
  dsimp -zeta only
  extract_lets sus ax s0 a c s1 s2
  have h0 : SameBut [.axt] s s0 := .ite (by constructor <;> simp) (.refl _ _)
  clear_value s0
  have h1 : SameBut crossingBlocks s0 a.state := .attribute _ _ _ _ _
  clear_value a
  have h2 : SameBut [.axt] a.state s1 :=
    ((SameBut.recordCrossing _ _ _ _).trans (.clearFront _ _)).trans (.clearFront _ _)
  clear_value s1
  have h3 : SameBut [.slc] s1 s2 := by
    unfold s2; split
    · exact .slotMove _ _ _
    · exact .ite (.refl _ _) (.offerDecks _)
  clear_value s2
  have h := ((h0.step (ds := crossingBlocks) h1).step (ds := crossingBlocks) h2).step (ds := crossingBlocks) h3
  exact h.step (ds := [.axt, .aud] ++ endBlocks) (.finish _ _)

theorem SameBut.takeAxle (s : State) (b : Byte) (tA tB : BitVec 32) (st : Byte) :
    SameBut ([.axt, .aud] ++ endBlocks) s (s.takeAxle b tA tB st) := by
  unfold State.takeAxle; dsimp only
  (repeat' split) <;> first
    | exact .takeCrossing _ _ _ _ _
    | (constructor <;> simp)

/-! ### Slots and finalizations -/

theorem SameBut.takeIdent (s : State) (l : Lane) (i : Identity) : SameBut endBlocks s (s.takeIdent l i) := by
  unfold State.takeIdent
  (repeat' split) <;> first
    | exact .refl _ _
    | exact (SameBut.attach _ _ _).step (.finish _ _)
    | (constructor <;> simp [State.holdIdentity, endBlocks])

theorem SameBut.takeCancel (s : State) (l : Lane) : SameBut endBlocks s (s.takeCancel l) := by
  unfold State.takeCancel
  (repeat' split) <;> first
    | exact .refl _ _
    | exact (SameBut.abort _ _).step (.finish _ _)

theorem SameBut.accept (s : State) (t : SlotId) (k : TicketKind) (c : Check) :
    SameBut [.mst, .slc, .gpt] s (s.accept t k c) :=
  ((SameBut.submit _ _).step (ds := [.mst, .slc, .gpt]) (.setSlot _ _ _)).trans ((SameBut.judgeRingLow _ _).mono (by decide))

theorem SameBut.judgeFinalize (s : State) (t : SlotId) (k : Option TicketKind) :
    SameBut [.mst, .slc, .gpt] s (s.judgeFinalize t k).1 := by
  unfold State.judgeFinalize; dsimp only
  (repeat' split) <;> first
    | exact (SameBut.refreshCheck _ _).mono (by decide)
    | exact (SameBut.refreshCheck _ _).step (.setSlot _ _ _)
    | exact (SameBut.refreshCheck _ _).step (.accept _ _ _ _)

theorem SameBut.finalize (s : State) (t : SlotId) (k : Option TicketKind) :
    SameBut (.mst :: endBlocks) s (s.finalize t k).1 := by
  unfold State.finalize
  split
  · split
    · exact (SameBut.refreshCheck _ _).step (.finish _ _)
    · exact .refl _ _
  · exact (SameBut.judgeFinalize _ _ _).step (.finish _ _)

theorem SameBut.takePrint (s : State) (l : Lane) : SameBut (.mst :: endBlocks) s (s.takePrint l) := by
  unfold State.takePrint; split
  · exact .finalize _ _ _
  · exact .refl _ _

/-! ### Frames -/

theorem SameBut.takeRequest (s : State) (r : Request) : SameBut [.gpt] s (s.takeRequest r) := by
  unfold State.takeRequest
  (repeat' split) <;> (constructor <;> simp)

theorem SameBut.modReceiver (s : State) (p : Port) (f : Receiver → Receiver) :
    SameBut (portBlocks p) s (s.modReceiver p f) := by
  cases p <;> (constructor <;> simp [State.modReceiver, portBlocks])

/-- The kind of a frame that passes its port's checks is one of that port's. -/
theorem judgeFrame_passes {p : Port} {covered word : List Byte} (h : judgeFrame p covered word = .passes) :
    ∃ k r, covered[2]? = some k ∧ inwardLength p k = some r := by
  unfold judgeFrame at h; dsimp only at h
  cases hk : covered[2]? with
  | none => rw [hk] at h; simp at h; split at h <;> cases h
  | some k =>
    rw [hk] at h
    cases hl : inwardLength p k with
    | none => simp [hl] at h; split at h <;> cases h
    | some r => exact ⟨k, r, rfl, hl⟩

theorem SameBut.dispatch (s : State) (p : Port) (k : Byte) (body : List Byte) (r : Nat × Nat)
    (h : inwardLength p k = some r) : SameBut (portBlocks p) s (s.dispatch k body) := by
  cases p
  · unfold State.dispatch; dsimp only
    (repeat' split) <;> first
      | exact (SameBut.takeCell _ _ _ _ _ _ _).mono (by decide)
      | exact (SameBut.takeAxle _ _ _ _ _).mono (by decide)
      | exact (SameBut.takeIdent _ _ _).mono (by decide)
      | exact (SameBut.takePrint _ _).mono (by decide)
      | exact (SameBut.takeCancel _ _).mono (by decide)
      | exact .refl _ _
      | (subst_vars; revert h; simp [inwardLength])
  · have hk : k = 0x21#8 := by
      unfold inwardLength at h; simp at h; exact h.1
    subst hk
    exact .takeRequest _ _

theorem SameBut.takeFrame (s : State) (p : Port) (chars : List Byte) : SameBut (portBlocks p) s (s.takeFrame p chars) := by
  unfold State.takeFrame; dsimp only
  split
  · exact .modReceiver _ _ _
  · exact .modReceiver _ _ _
  · exact .modReceiver _ _ _
  · rename_i h
    obtain ⟨k, r, hk, hr⟩ := judgeFrame_passes h
    have : ((chars.drop 1).take (chars.length - 3)).getD 2 0 = k := by
      rw [List.getD_eq_getElem?_getD, hk]; rfl
    rw [this]
    exact .dispatch _ _ _ _ _ hr

theorem SameBut.takeChar (p : Port) (s : State) (c : Byte) : SameBut (portBlocks p) s (State.takeChar p s c) := by
  unfold State.takeChar; dsimp only
  (repeat' split) <;> first
    | exact .refl _ _
    | exact .modReceiver _ _ _
    | exact (SameBut.modReceiver _ _ _).trans (.takeFrame _ _ _)

theorem SameBut.takeChars (p : Port) (s : State) (cs : List Byte) :
    SameBut (portBlocks p) s (cs.foldl (State.takeChar p) s) :=
  .fold _ _ (fun s c => .takeChar p s c) _ _

/-- A whole frame heard touches what taking it touches, where no frame is part-assembled. -/
theorem SameBut.hear_idle {bs : List Block} {p : Port} {kind : Byte} {body : List Byte} {take : State → State} {s : State}
    (h : (s.receiver p).rx = []) (ht : SameBut bs s (take s)) : SameBut bs s (State.hear p kind body take s) := by
  rw [State.hear, if_pos h]; exact ht

/-- A whole frame heard touches no more than its port's characters may. -/
theorem SameBut.hear {p : Port} {kind : Byte} {body : List Byte} {take : State → State} {s : State}
    (ht : SameBut (portBlocks p) s (take s)) : SameBut (portBlocks p) s (State.hear p kind body take s) := by
  unfold State.hear; split
  · exact ht
  · exact .takeChars _ _ _

/-! ### Ends of store jobs -/

/-- The blocks the end of a job may touch before the operation ends. -/
def jobBlocks : List Block := [.cells, .decks, .axt, .slc, .tku, .aud, .cal, .mst, .gpt]

theorem SameBut.completed (s : State) (j : Job) (r : Running) : SameBut jobBlocks s (s.completed j r) := by
  cases j with
  | ticket c =>
    exact (((((SameBut.issue _ _).trans (.pendingAfter _ _ _)).trans (.ringAdd _ _)).step (ds := [.tku, .slc])
      (.tareAfter _ _ _)).trans ((SameBut.slotOutcome _ _ _).mono (by decide))).mono (by decide)
  | close c =>
    show SameBut jobBlocks s (s.closeDone r c)
    unfold State.closeDone; dsimp only
    have h : SameBut [.tku, .aud] s (((s.issue r.serial).closeStandings r c).ringAdd (.audit (r.audit c))) := by
      constructor <;> simp
    split
    · exact (h.step (ds := jobBlocks) (.releaseAudit _)).trans ((SameBut.closeRun _).mono (by decide))
    · exact h.mono (by decide)
  | commit =>
    show SameBut jobBlocks s (s.commitDone r)
    unfold State.commitDone; dsimp only
    refine SameBut.trans ?_ ((SameBut.raise _ _).mono (by decide))
    have h1 := (SameBut.countEvent s r s.cal.log).mono (cs := jobBlocks) (by decide)
    generalize s.countEvent r s.cal.log = s1 at h1 ⊢
    have h2 : ∀ s : State, ∀ n, SameBut jobBlocks s (s.newCount n) := fun s n => by
      unfold State.newCount; split
      · exact .refl _ _
      · constructor <;> simp [jobBlocks]
    have h3 : ∀ s : State, ∀ n c, SameBut jobBlocks s (s.newStandings n c) := fun s n c => by
      constructor <;> simp [jobBlocks, State.newStandings]
    have h4 : ∀ (l : List Nat) (s : State), SameBut jobBlocks s (l.foldl State.restart s) := fun l s =>
      .fold _ _ (fun s d => (SameBut.restart s d).mono (by decide)) _ _
    have h5 : ∀ s : State, ∀ v, SameBut jobBlocks s { s with decks := v } := fun s v => by
      constructor <;> simp [jobBlocks]
    have h6 : ∀ s : State, SameBut jobBlocks s { s with slc := { s.slc with commitMark := false } } := fun s => by
      constructor <;> simp [jobBlocks]
    refine SameBut.trans ?_ (h6 _)
    refine SameBut.trans ?_ (h3 _ _ _)
    refine SameBut.trans ?_ (h4 _ _)
    refine SameBut.trans ?_ (h5 _ _)
    refine SameBut.trans ?_ (h2 _ _)
    exact h1.trans (by constructor <;> simp [jobBlocks])
  | logErase =>
    exact (SameBut.countEvent _ _ _).step (.raise _ _)
  | restore v =>
    show SameBut jobBlocks s (s.restoreDone r v)
    unfold State.restoreDone
    extract_lets s1 tk s2 s3
    have h1 : SameBut jobBlocks s s1 := (SameBut.countEvent _ _ _).mono (by decide)
    clear_value s1
    have h2 : SameBut jobBlocks s1 s2 := by constructor <;> simp [s2, jobBlocks]
    clear_value s2
    have h3 : SameBut jobBlocks s2 s3 := by
      unfold s3 State.pendingRestored
      extract_lets held kept back
      refine SameBut.trans ?_ (SameBut.fold _ _ (fun s p => (SameBut.raise s _).mono (by decide)) _ _)
      constructor <;> simp [jobBlocks]
    clear_value s3
    exact ((h1.trans h2).trans h3).trans ((SameBut.raise _ _).mono (by decide))
  | ack v =>
    show SameBut jobBlocks s (s.ackDone v)
    unfold State.ackDone State.submitHeld
    split
    · refine SameBut.trans ?_ ((SameBut.submit _ _).mono (by decide))
      constructor <;> simp [jobBlocks]
    · constructor <;> simp [jobBlocks]
  | housekeeping ns =>
    show SameBut jobBlocks s (s.sweepDone ns)
    unfold State.sweepDone; dsimp only
    refine SameBut.trans ?_ (SameBut.fold _ _ (fun s p => (SameBut.raise s _).mono (by decide)) _ _)
    constructor <;> simp [jobBlocks]

theorem SameBut.failed (s : State) (j : Job) : SameBut [.slc, .aud, .tku] s (s.failed j) := by
  cases j with
  | ticket c => exact (SameBut.slotOutcome _ _ _).mono (by decide)
  | close c =>
    unfold State.failed
    exact .ite (by constructor <;> simp) (.refl _ _)
  | commit => constructor <;> simp [State.failed]
  | logErase => exact .refl _ _
  | restore v => exact .refl _ _
  | ack v => constructor <;> simp [State.failed]
  | housekeeping ns => exact .refl _ _

theorem SameBut.setMst (s : State) (m : MetroStore) : SameBut [.mst] s { s with mst := m } := by constructor <;> simp

theorem SameBut.writeEnds (s : State) (rb : ReadBack) (j : Job) (r : Running) (w : Write) (ws : List Write) :
    SameBut (jobBlocks ++ endBlocks) s (s.writeEnds rb j r w ws) := by
  unfold State.writeEnds; dsimp only
  cases rb with
  | equal =>
    dsimp only
    split
    · refine SameBut.step (bs := jobBlocks) ?_ (.finish _ _)
      unfold State.completeJob
      exact ((SameBut.setMst _ _).trans (SameBut.setMst _ _)).step (ds := jobBlocks)
        ((SameBut.completed _ j r).trans ((SameBut.beginNext _).mono (by decide)))
    · exact ((SameBut.setMst _ _).trans (SameBut.setMst _ _)).mono (by decide)
  | differs l =>
    dsimp only
    split
    · refine SameBut.step (bs := jobBlocks) ?_ (.finish _ _)
      unfold State.failJobs; dsimp only
      refine SameBut.trans ?_ (.fold _ _ (fun s j => (SameBut.failed s j).mono (by decide)) _ _)
      refine SameBut.trans ?_ ((SameBut.raise _ _).mono (by decide))
      refine SameBut.trans ?_ ((SameBut.setMst _ _).mono (by decide))
      exact ((SameBut.setMst _ _).trans (SameBut.setMst _ _)).step (.failed _ _)
    · exact (SameBut.setMst _ _).mono (by decide)

end Sys2Proof.Machine
end

