-- ==== Sys2Proof/Laws/PerInstr.lean ====
section
/-! SUPPORT. A statement of every command, by constructor: the request a well-formed command executes fits in a frame. -/

namespace Sys2Proof.Laws.RequestFits

open Sys2Proof Sys2Proof.Machine

/-- The request a row executes, none for a row that executes none (R201). -/
def requestOf : Instr → Option Request
  | .powerUp _ => none
  | .powerLoss _ => none
  | .framePause _ _ => none
  | .badFrame _ _ => none
  | .cellFrame _ _ _ _ _ _ => none
  | .scanTimerExpiry => none
  | .sendScan => none
  | .sendSignal => none
  | .zeroSettleExpiry _ => none
  | .zeroIntervalExpiry _ => none
  | .reportDelayExpiry _ => none
  | .maximumIntervalExpiry _ => none
  | .axleFrame _ _ _ _ => none
  | .quietTimerExpiry _ => none
  | .identFrame _ _ => none
  | .waitingIdentityExpiry => none
  | .laneKeyCancel _ => none
  | .laneKeyPrint _ => none
  | .requestFrame _ _ _ => none
  | .unknownRequest tag kind args => some { tag := tag, kind := kind, args := args }
  | .readEntrySettings tag index => some (readRequest tag tabSettings index)
  | .writeEntrySettings tag index contents => some (writeRequest tag tabSettings index contents)
  | .readEntryCells tag index => some (readRequest tag tabCells index)
  | .readEntryDecks tag index => some (readRequest tag tabDecks index)
  | .readEntryMetro tag index => some (readRequest tag tabMetro index)
  | .writeEntryMetro tag index contents => some (writeRequest tag tabMetro index contents)
  | .readEntryClasses tag index => some (readRequest tag tabClasses index)
  | .writeEntryClasses tag index contents => some (writeRequest tag tabClasses index contents)
  | .readEntryPermits tag index => some (readRequest tag tabPermits index)
  | .writeEntryPermits tag index contents => some (writeRequest tag tabPermits index contents)
  | .readEntryBarred tag index => some (readRequest tag tabBarred index)
  | .writeEntryBarred tag index contents => some (writeRequest tag tabBarred index contents)
  | .readEntrySlots tag index => some (readRequest tag tabSlots index)
  | .readEntryPending tag index => some (readRequest tag tabPending index)
  | .readEntryAuditlog tag index => some (readRequest tag tabAuditlog index)
  | .readEntryAuditrun tag index => some (readRequest tag tabAuditrun index)
  | .readEntryIdentity tag index => some (readRequest tag tabIdentity index)
  | .setTime tag t => some { tag := tag, kind := reqSetTime, args := bytesOf 4 t.toNat }
  | .timeTick => none
  | .zero tag d => some { tag := tag, kind := reqZero, args := [d] }
  | .reIdent tag n i => some { tag := tag, kind := reqReIdent, args := n :: bytesOf 8 i.toNat }
  | .abortSlot tag n => some { tag := tag, kind := reqAbortSlot, args := [n] }
  | .clearStrays tag => some { tag := tag, kind := reqClearStrays, args := [] }
  | .finalize tag n kind => some { tag := tag, kind := reqFinalize, args := [n, kind] }
  | .ackTickets tag serial => some { tag := tag, kind := reqAckTickets, args := bytesOf 4 serial.toNat }
  | .resendTickets tag serial => some { tag := tag, kind := reqResendTickets, args := bytesOf 4 serial.toNat }
  | .ackFlags tag cell => some { tag := tag, kind := reqAckFlags, args := [cell] }
  | .auditOpen tag decks => some { tag := tag, kind := reqAuditOpen, args := BitVec.ofNat 8 decks.length :: decks }
  | .auditPoint tag d nominal position =>
    some { tag := tag, kind := reqAuditPoint, args := d :: (bytesOf 4 nominal.toNat ++ [position]) }
  | .pointTimerExpiry => none
  | .auditClose tag => some { tag := tag, kind := reqAuditClose, args := [] }
  | .auditCancel tag => some { tag := tag, kind := reqAuditCancel, args := [] }
  | .zeroCells tag d => some { tag := tag, kind := reqZeroCells, args := [d] }
  | .spanFromPoint tag p => some { tag := tag, kind := reqSpanFromPoint, args := [p] }
  | .commit tag => some { tag := tag, kind := reqCommit, args := [] }
  | .logErase tag => some { tag := tag, kind := reqLogErase, args := [] }
  | .serialRestore tag v => some { tag := tag, kind := reqSerialRestore, args := bytesOf 4 v.toNat }
  | .reset tag scope => some { tag := tag, kind := reqReset, args := [scope] }
  | .sendResponse => none
  | .sendTicket => none
  | .sendNotice => none
  | .sendWeight => none
  | .recordWriteDone _ => none
  | .pendingSweep => none
  | .verificationLapsed => none
  | .switchMoved _ => none
  | .writeEntryReadOnlyTable tag table index contents => some (writeRequest tag table index contents)
  | .unknownTableName tag kind table index contents =>
    some { tag := tag, kind := kind, args := table :: (bytesOf 2 index.toNat ++ contents) }

/-- The request a well-formed command executes fits in a frame, and has the form of its kind where its row is not that
of a malformed request (R187, R198, R201). -/
def Statement (i : Instr) : Prop :=
  i.wellFormed = true → ∀ r, requestOf i = some r →
    r.args.length ≤ maxArgs ∧ ((∃ tag kind args, i = .unknownRequest tag kind args) ∨ formOk r.kind r.args = true)

@[simp] theorem bytesOf_length (n v : Nat) : (bytesOf n v).length = n := by
  induction n with
  | zero => rfl
  | succ n ih => simp [bytesOf, ih]

theorem read_fits {P : Prop} {tag table : Byte} {index : BitVec 16} :
    (readRequest tag table index).args.length ≤ maxArgs ∧
      (P ∨ formOk (readRequest tag table index).kind (readRequest tag table index).args = true) := by
  simp [readRequest, reqReadEntry, maxArgs, formOk]

theorem write_fits {P : Prop} {tag table : Byte} {index : BitVec 16} {contents : List Byte}
    (w : contentsFit contents = true) :
    (writeRequest tag table index contents).args.length ≤ maxArgs ∧
      (P ∨ formOk (writeRequest tag table index contents).kind (writeRequest tag table index contents).args = true) := by
  simp [contentsFit] at w
  simp [writeRequest, reqWriteEntry, formOk]
  omega

theorem auditOpen_fits {P : Prop} {decks : List Byte} (w : decide (decks.length ≤ 255) = true) :
    (BitVec.ofNat 8 decks.length :: decks).length ≤ maxArgs ∧
      (P ∨ formOk reqAuditOpen (BitVec.ofNat 8 decks.length :: decks) = true) := by
  simp at w
  simp [maxArgs, formOk, reqAuditOpen]
  omega

theorem unknownTable_fits {P : Prop} {kind table : Byte} {index : BitVec 16} {contents : List Byte}
    (w : (decide (12 ≤ table.toNat) && decide (kind.toNat ≤ 1) && contentsFit contents
      && (kind != 0 || contents.isEmpty)) = true) :
    (table :: (bytesOf 2 index.toNat ++ contents)).length ≤ maxArgs ∧
      (P ∨ formOk kind (table :: (bytesOf 2 index.toNat ++ contents)) = true) := by
  simp [contentsFit] at w
  obtain ⟨⟨⟨_, hk⟩, hc⟩, hz⟩ := w
  refine ⟨by simp; omega, .inr ?_⟩
  have : kind = 0#8 ∨ kind = 1#8 := by
    rcases Nat.le_one_iff_eq_zero_or_eq_one.mp hk with h | h
    · exact .inl (BitVec.eq_of_toNat_eq h)
    · exact .inr (BitVec.eq_of_toNat_eq h)
  rcases this with rfl | rfl
  · simp_all [formOk]
  · simp [formOk]

theorem powerUp (switch : Mode) : Statement (.powerUp switch) := fun _ _ h => nomatch h
theorem powerLoss (left : Left) : Statement (.powerLoss left) := fun _ _ h => nomatch h
theorem framePause (port : Port) (chars : List Byte) : Statement (.framePause port chars) := fun _ _ h => nomatch h
theorem badFrame (port : Port) (chars : List Byte) : Statement (.badFrame port chars) := fun _ _ h => nomatch h
theorem cellFrame (node : Byte) (scan : Byte) (raw : BitVec 24) (temperature : BitVec 16) (excitation : BitVec 16) (status : Byte) :
    Statement (.cellFrame node scan raw temperature excitation status) := fun _ _ h => nomatch h
theorem scanTimerExpiry : Statement (.scanTimerExpiry) := fun _ _ h => nomatch h
theorem sendScan : Statement (.sendScan) := fun _ _ h => nomatch h
theorem sendSignal : Statement (.sendSignal) := fun _ _ h => nomatch h
theorem zeroSettleExpiry (d : Nat) : Statement (.zeroSettleExpiry d) := fun _ _ h => nomatch h
theorem zeroIntervalExpiry (d : Nat) : Statement (.zeroIntervalExpiry d) := fun _ _ h => nomatch h
theorem reportDelayExpiry (d : Nat) : Statement (.reportDelayExpiry d) := fun _ _ h => nomatch h
theorem maximumIntervalExpiry (d : Nat) : Statement (.maximumIntervalExpiry d) := fun _ _ h => nomatch h
theorem axleFrame (boundary : Byte) (tA : BitVec 32) (tB : BitVec 32) (status : Byte) :
    Statement (.axleFrame boundary tA tB status) := fun _ _ h => nomatch h
theorem quietTimerExpiry (slot : SlotId) : Statement (.quietTimerExpiry slot) := fun _ _ h => nomatch h
theorem identFrame (lane : Lane) (identity : Identity) : Statement (.identFrame lane identity) := fun _ _ h => nomatch h
theorem waitingIdentityExpiry : Statement (.waitingIdentityExpiry) := fun _ _ h => nomatch h
theorem laneKeyCancel (lane : Lane) : Statement (.laneKeyCancel lane) := fun _ _ h => nomatch h
theorem laneKeyPrint (lane : Lane) : Statement (.laneKeyPrint lane) := fun _ _ h => nomatch h
theorem requestFrame (tag : Byte) (kind : Byte) (args : List Byte) :
    Statement (.requestFrame tag kind args) := fun _ _ h => nomatch h
theorem unknownRequest (tag : Byte) (kind : Byte) (args : List Byte) : Statement (.unknownRequest tag kind args) := by
  intro w r h; cases h
  exact ⟨of_decide_eq_true w, .inl ⟨_, _, _, rfl⟩⟩
theorem readEntrySettings (tag : Byte) (index : BitVec 16) : Statement (.readEntrySettings tag index) := by
  intro w r h; cases h
  exact read_fits
theorem writeEntrySettings (tag : Byte) (index : BitVec 16) (contents : List Byte) :
    Statement (.writeEntrySettings tag index contents) := by
  intro w r h; cases h
  exact write_fits w
theorem readEntryCells (tag : Byte) (index : BitVec 16) : Statement (.readEntryCells tag index) := by
  intro w r h; cases h
  exact read_fits
theorem readEntryDecks (tag : Byte) (index : BitVec 16) : Statement (.readEntryDecks tag index) := by
  intro w r h; cases h
  exact read_fits
theorem readEntryMetro (tag : Byte) (index : BitVec 16) : Statement (.readEntryMetro tag index) := by
  intro w r h; cases h
  exact read_fits
theorem writeEntryMetro (tag : Byte) (index : BitVec 16) (contents : List Byte) :
    Statement (.writeEntryMetro tag index contents) := by
  intro w r h; cases h
  exact write_fits w
theorem readEntryClasses (tag : Byte) (index : BitVec 16) : Statement (.readEntryClasses tag index) := by
  intro w r h; cases h
  exact read_fits
theorem writeEntryClasses (tag : Byte) (index : BitVec 16) (contents : List Byte) :
    Statement (.writeEntryClasses tag index contents) := by
  intro w r h; cases h
  exact write_fits w
theorem readEntryPermits (tag : Byte) (index : BitVec 16) : Statement (.readEntryPermits tag index) := by
  intro w r h; cases h
  exact read_fits
theorem writeEntryPermits (tag : Byte) (index : BitVec 16) (contents : List Byte) :
    Statement (.writeEntryPermits tag index contents) := by
  intro w r h; cases h
  exact write_fits w
theorem readEntryBarred (tag : Byte) (index : BitVec 16) : Statement (.readEntryBarred tag index) := by
  intro w r h; cases h
  exact read_fits
theorem writeEntryBarred (tag : Byte) (index : BitVec 16) (contents : List Byte) :
    Statement (.writeEntryBarred tag index contents) := by
  intro w r h; cases h
  exact write_fits w
theorem readEntrySlots (tag : Byte) (index : BitVec 16) : Statement (.readEntrySlots tag index) := by
  intro w r h; cases h
  exact read_fits
theorem readEntryPending (tag : Byte) (index : BitVec 16) : Statement (.readEntryPending tag index) := by
  intro w r h; cases h
  exact read_fits
theorem readEntryAuditlog (tag : Byte) (index : BitVec 16) : Statement (.readEntryAuditlog tag index) := by
  intro w r h; cases h
  exact read_fits
theorem readEntryAuditrun (tag : Byte) (index : BitVec 16) : Statement (.readEntryAuditrun tag index) := by
  intro w r h; cases h
  exact read_fits
theorem readEntryIdentity (tag : Byte) (index : BitVec 16) : Statement (.readEntryIdentity tag index) := by
  intro w r h; cases h
  exact read_fits
theorem setTime (tag : Byte) (t : BitVec 32) : Statement (.setTime tag t) := by
  intro w r h; cases h
  simp [maxArgs, formOk, reqSetTime]
theorem timeTick : Statement (.timeTick) := fun _ _ h => nomatch h
theorem zero (tag : Byte) (d : Byte) : Statement (.zero tag d) := by
  intro w r h; cases h
  simp [maxArgs, formOk, reqZero]
theorem reIdent (tag : Byte) (v : Byte) (identity : Identity) : Statement (.reIdent tag v identity) := by
  intro w r h; cases h
  simp [maxArgs, formOk, reqReIdent]
theorem abortSlot (tag : Byte) (v : Byte) : Statement (.abortSlot tag v) := by
  intro w r h; cases h
  simp [maxArgs, formOk, reqAbortSlot]
theorem clearStrays (tag : Byte) : Statement (.clearStrays tag) := by
  intro w r h; cases h
  simp [maxArgs, formOk, reqClearStrays]
theorem finalize (tag : Byte) (v : Byte) (kind : Byte) : Statement (.finalize tag v kind) := by
  intro w r h; cases h
  simp [maxArgs, formOk, reqFinalize]
theorem ackTickets (tag : Byte) (serial : BitVec 32) : Statement (.ackTickets tag serial) := by
  intro w r h; cases h
  simp [maxArgs, formOk, reqAckTickets]
theorem resendTickets (tag : Byte) (serial : BitVec 32) : Statement (.resendTickets tag serial) := by
  intro w r h; cases h
  simp [maxArgs, formOk, reqResendTickets]
theorem ackFlags (tag : Byte) (cell : Byte) : Statement (.ackFlags tag cell) := by
  intro w r h; cases h
  simp [maxArgs, formOk, reqAckFlags]
theorem auditOpen (tag : Byte) (decks : List Byte) : Statement (.auditOpen tag decks) := by
  intro w r h; cases h
  exact auditOpen_fits w
theorem auditPoint (tag : Byte) (d : Byte) (nominal : BitVec 32) (position : Byte) :
    Statement (.auditPoint tag d nominal position) := by
  intro w r h; cases h
  simp [maxArgs, formOk, reqAuditPoint]
theorem pointTimerExpiry : Statement (.pointTimerExpiry) := fun _ _ h => nomatch h
theorem auditClose (tag : Byte) : Statement (.auditClose tag) := by
  intro w r h; cases h
  simp [maxArgs, formOk, reqAuditClose]
theorem auditCancel (tag : Byte) : Statement (.auditCancel tag) := by
  intro w r h; cases h
  simp [maxArgs, formOk, reqAuditCancel]
theorem zeroCells (tag : Byte) (d : Byte) : Statement (.zeroCells tag d) := by
  intro w r h; cases h
  simp [maxArgs, formOk, reqZeroCells]
theorem spanFromPoint (tag : Byte) (p : Byte) : Statement (.spanFromPoint tag p) := by
  intro w r h; cases h
  simp [maxArgs, formOk, reqSpanFromPoint]
theorem commit (tag : Byte) : Statement (.commit tag) := by
  intro w r h; cases h
  simp [maxArgs, formOk, reqCommit]
theorem logErase (tag : Byte) : Statement (.logErase tag) := by
  intro w r h; cases h
  simp [maxArgs, formOk, reqLogErase]
theorem serialRestore (tag : Byte) (v : BitVec 32) : Statement (.serialRestore tag v) := by
  intro w r h; cases h
  simp [maxArgs, formOk, reqSerialRestore]
theorem reset (tag : Byte) (scope : Byte) : Statement (.reset tag scope) := by
  intro w r h; cases h
  simp [maxArgs, formOk, reqReset]
theorem sendResponse : Statement (.sendResponse) := fun _ _ h => nomatch h
theorem sendTicket : Statement (.sendTicket) := fun _ _ h => nomatch h
theorem sendNotice : Statement (.sendNotice) := fun _ _ h => nomatch h
theorem sendWeight : Statement (.sendWeight) := fun _ _ h => nomatch h
theorem recordWriteDone (readBack : ReadBack) : Statement (.recordWriteDone readBack) := fun _ _ h => nomatch h
theorem pendingSweep : Statement (.pendingSweep) := fun _ _ h => nomatch h
theorem verificationLapsed : Statement (.verificationLapsed) := fun _ _ h => nomatch h
theorem switchMoved (position : Mode) : Statement (.switchMoved position) := fun _ _ h => nomatch h
theorem writeEntryReadOnlyTable (tag : Byte) (table : Byte) (index : BitVec 16) (contents : List Byte) :
    Statement (.writeEntryReadOnlyTable tag table index contents) := by
  intro w r h; cases h
  exact write_fits (((Bool.and_eq_true _ _).mp w).2)
theorem unknownTableName (tag : Byte) (kind : Byte) (table : Byte) (index : BitVec 16) (contents : List Byte) :
    Statement (.unknownTableName tag kind table index contents) := by
  intro w r h; cases h
  exact unknownTable_fits w

end Sys2Proof.Laws.RequestFits
end

