-- ==== Sys2Proof/Tests/Slice0.lean ====
section
/-! SUPPORT. Tests: an ill-formed command for each check, figures worked out in the spec, single commands on a small
bench state, and for each obligation with hypotheses a state that meets them. -/

namespace Sys2Proof.Tests

open Sys2Proof Sys2Proof.Machine

/-! ### Ill-formed commands -/

theorem test_ill_zero_settle : (Instr.zeroSettleExpiry 6).wellFormed = false := by decide
theorem test_ill_zero_interval : (Instr.zeroIntervalExpiry 6).wellFormed = false := by decide
theorem test_ill_report_delay : (Instr.reportDelayExpiry 6).wellFormed = false := by decide
theorem test_ill_maximum_interval : (Instr.maximumIntervalExpiry 6).wellFormed = false := by decide
theorem test_ill_request : (Instr.requestFrame 0 0 (List.replicate 510 0#8)).wellFormed = false := by decide +kernel
theorem test_ill_unknown : (Instr.unknownRequest 0 99 (List.replicate 510 0#8)).wellFormed = false := by decide +kernel
theorem test_ill_settings : (Instr.writeEntrySettings 0 0 (List.replicate 507 0#8)).wellFormed = false := by
  decide +kernel
theorem test_ill_metro : (Instr.writeEntryMetro 0 0 (List.replicate 507 0#8)).wellFormed = false := by decide +kernel
theorem test_ill_classes : (Instr.writeEntryClasses 0 0 (List.replicate 507 0#8)).wellFormed = false := by
  decide +kernel
theorem test_ill_permits : (Instr.writeEntryPermits 0 0 (List.replicate 507 0#8)).wellFormed = false := by
  decide +kernel
theorem test_ill_barred : (Instr.writeEntryBarred 0 0 (List.replicate 507 0#8)).wellFormed = false := by decide +kernel
theorem test_ill_audit_open : (Instr.auditOpen 0 (List.replicate 256 0#8)).wellFormed = false := by decide +kernel
theorem test_ill_read_only : (Instr.writeEntryReadOnlyTable 0 0 0 []).wellFormed = false := by decide
theorem test_ill_table_known : (Instr.unknownTableName 0 0 11 0 []).wellFormed = false := by decide
theorem test_ill_table_kind : (Instr.unknownTableName 0 2 12 0 []).wellFormed = false := by decide
theorem test_ill_table_read : (Instr.unknownTableName 0 0 12 0 [0]).wellFormed = false := by decide

/-! ### The bench: two decks of one cell each, weighing -/

/-- Node 12 of the spec's deck 1 (08_calibration.md), here on deck 0. -/
def cellA : CellConst := { node := 12, deck := 0, zero := 8010, span := 228800, breaks := [], corner := 16384 }

/-- Cell 3 of the spec, node 14 (01_cells_and_the_scan.md). -/
def cellB : CellConst :=
  { node := 14, deck := 1, zero := 12340, span := 229376, breaks := [(5000000, 1200), (10000000, 2000)], corner := 16400 }

def benchSet : MetroSet :=
  { n := 2, e := 20000, interval := 365, maxes := [60000000, 60000000],
    cells := ((Vector.replicate 32 none).set 0 (some cellA)).set 1 (some cellB) }

/-- An empty deck of the spec's morning (02_decks_sum_filter_motion_and_zero.md). -/
def idleDeck : Deck :=
  { freshDeck none with motion := .stable, zero := some { z := 47800, init := 41000 }, w := some 62300,
                        filter := [62300], motionWin := [62300], reportMark := false }

def bench : State :=
  { State.reset with
    cells := [freshCell cellA, freshCell cellB]
    decks := [idleDeck, idleDeck]
    scn := { State.reset.scn with number := 17, isOpen := true }
    slc := { State.reset.slc with claims := [.none, .none] }
    aud := { State.reset.aud with standings := [.unverified, .unverified], lapsed := [false, false] }
    cal := { State.reset.cal with working := benchSet, active := some benchSet }
    gpt := { State.reset.gpt with notices := [], lastReported := 1 } }

/-- The part with no supply, its store as delivered. -/
def unlit : State := State.dark factoryStore []

/-- The state with that request alone in the request queue. -/
def asked (s : State) (kind : Byte) (args : List Byte) : State :=
  { s with gpt := { s.gpt with requests := [{ tag := 7, kind := kind, args := args }] } }

/-- What `P` says of the next state. -/
def after (o : Host.Outcome State Fault Refusal) (P : State → Bool) : Bool :=
  match o with
  | .next t => P t
  | _ => false

/-! ### Figures of the spec -/

/-- 11_frame_and_record_layouts.md, "checking a check word". -/
theorem test_check_word : checkWord [0x31, 0x32, 0x33, 0x34, 0x35, 0x36, 0x37, 0x38, 0x39] = 0x29B1#16 := by
  decide +kernel

theorem test_scan_frame : (frameBytes 0x01 [0x11]).take 5 = [0xA5, 0x00, 0x02, 0x01, 0x11] := by decide +kernel

/-- 01_cells_and_the_scan.md, readings A, B and C. -/
theorem test_reading_a : convert cellB 2104553 = 7328324 := by decide +kernel
theorem test_reading_b : convert cellB 11999 = -1195 := by decide +kernel
theorem test_reading_c : convert cellB 3200000 = 11165703 := by decide +kernel

/-- 03_axle_tracking.md, the six-axle truck. -/
theorem test_spacing_axle2 : spacingOf 500 1296000 178000 180000 = some 3620 := by decide +kernel
theorem test_spacing_axle4 : spacingOf 500 1830000 182000 184000 = some 5000 := by decide +kernel

/-- 04_weighing_slots_and_lane_control.md, "forming a flag number". -/
theorem test_flag_number : flagNumber 0xA13C5F7E92#64 = 476 := by decide +kernel

/-- 05_axle_group_checks.md, the six-axle truck: the three groups and the gross. -/
theorem test_group_loads : [6512340, 17240880, 21873650, 45626870].map (roundMass 20000) =
    [6520000, 17240000, 21880000, 45620000] := by decide +kernel
theorem test_group_verdicts : [(6500000, 6520000), (16500000, 17240000), (20000000, 21880000), (42500000, 45620000)].map
    (fun x : Int × Int => judgeLoad x.1 (ceilingOf x.1 50) x.2) = [.tolerated, .tolerated, .over, .over] := by
  decide +kernel

/-- 08_calibration.md, "adjusting deck 1": the zero counts and the span of node 14. -/
theorem test_new_zeros : [roundDiv 32006 4, roundDiv (-12471) 4, roundDiv 49604 4, roundDiv 82152 4] =
    [8002, -3118, 12401, 20538] := by decide +kernel
theorem test_new_span : roundDiv (229376 * 20000000) 19987410 = 229520 := by decide +kernel

/-- 09_verification_audits.md: the MPE of the nominals at e = 20,000 g. -/
theorem test_mpe : [0, 10000000, 20000000, 30000000, 40000000].map (mpeOf 20000) =
    [10000, 10000, 20000, 20000, 20000] := by decide +kernel

/-- R130: the records of a new part pass their checks. -/
theorem test_factory_records : recPasses counterBytes factoryStore.counter = true ∧
    recPasses serialBytes factoryStore.serial = true ∧ recPasses serialBytes factoryStore.ack = true ∧
    recPasses logBytes factoryStore.log[0] = true ∧ recPasses standingBytes factoryStore.verif[0] = true ∧
    recPasses pendingBytes factoryStore.pending[0] = true := by decide +kernel

/-! ### Single commands -/

/-- Reading A at its cell: the mass is held, and the reply is OK (R6, R12). -/
theorem test_cell_frame : after (exec (.cellFrame 14 17 2104553 200 10000 0) bench)
    (fun t => t.cells[1]?.map (fun c => (c.mass, c.entry)) == some (some 7328324, .ok)) = true := by decide +kernel

/-- The two drops of a discarded CELL reply are told apart: unknown node before stale scan (R4). -/
theorem test_cell_frame_unknown : after (exec (.cellFrame 13 16 0 0 0 0) bench)
    (fun t => t.scn.unknownCell == 1 && t.scn.stale == 0) = true := by decide +kernel

/-- "A morning on deck 1", 07:22: ZERO is answered OK with W, and Z moves (R37). -/
theorem test_zero : after (exec (.zero 7 1) (asked bench 3 [1]))
    (fun t => t.decks[1]?.map (·.zero) == some (some { z := 62300, init := 41000 })
      && t.gpt.responses == [{ tag := 7, kind := 3, status := .ok, body := [0x00, 0x00, 0xF3, 0x5C] }]) = true := by
  decide +kernel

/-- "A morning on deck 1", 07:20: a gross of 14,500 g is residue, and the zero stays (R36). -/
theorem test_zero_check : after (exec (.zeroSettleExpiry 1) (bench.modDeck 1 fun k => { k with settle := some 0 }))
    (fun t => t.gpt.notices == [{ time := none, notice := .residue 1 14500 }]
      && t.decks[1]?.map (·.zero) == some (some { z := 47800, init := 41000 })) = true := by decide +kernel

/-- A crossing at the entry of an empty bridge opens slot 0 with its axle on deck 0 (R54, R66). -/
theorem test_axle_opens : after (exec (.axleFrame 0 1000000 1180000 0) bench)
    (fun t => t.lineShape == [(some .slot0, 0)] && t.slc.slot0.state == .moving
      && t.slc.claims == [.slot .slot0, .none]) = true := by decide +kernel

/-- "Two trucks on a three-deck bridge", last line, here on the last deck of two: a forward crossing off an empty deck is
untracked (R57). -/
theorem test_axle_untracked : after (exec (.axleFrame 2 1000000 1180000 0) bench)
    (fun t => t.axt.untracked[1]? == some 1 && t.axt.line == []) = true := by decide +kernel

/-- An identity read with no vehicle at the entry waits 60 s by default (R80, R81, R189). -/
theorem test_ident_waits : after (exec (.identFrame .entry 5) bench)
    (fun t => t.slc.waiting == some 5 && t.slc.waitingTimer == some 60000) = true := by decide +kernel

/-! ### States that meet the hypotheses of the obligations, one theorem for each -/

theorem witness_StepRunsCommand : { bench with pending := [.sendScan] }.pending = .sendScan :: [] := rfl

theorem witness_StepPassesTime : bench.pending = [] ∧ bench.powered = true ∧ unlit.pending = [] ∧ unlit.powered = false := by
  decide

/-- The bench with the first two characters of a frame held at its field port. -/
def midFrame : State := [0xA5#8, 0#8].foldl (State.takeChar .field) bench

theorem witness_CommandsKeepOtherBlocks : Instr.isSupply .sendScan = false ∧
    (∀ p, Instr.port .sendScan = some p → (bench.receiver p).rx = []) ∧ (∃ t, exec .sendScan bench = .next t) ∧
    (∀ p, (Instr.laneKeyCancel .entry).port = some p → (bench.receiver p).rx = []) ∧
    (∃ t, exec (.laneKeyCancel .entry) bench = .next t) ∧ (midFrame.receiver .field).rx = [0xA5, 0] ∧
    (∃ t, exec (.laneKeyCancel .entry) midFrame = .next t) ∧
    unlit.powered = false ∧ ∀ m, Instr.sendScan ≠ .powerUp m :=
  ⟨rfl, fun p h => (nomatch h), ⟨_, rfl⟩, fun p h => by cases h; rfl, ⟨_, rfl⟩, by decide +kernel, ⟨_, rfl⟩, rfl,
    fun m h => by cases h⟩

theorem witness_PowerUpStarts : unlit.powered = false ∧ bench.powered = true := by decide

/-- A record laid down whole passes its check. -/
theorem recOf_passes {α : Type} (layout : α → List Byte) (c : α) : recPasses layout (recOf layout c) = true := by
  simp [recPasses, recOf]

/-- The store of a part committed once with set `m`, and that of one whose counter record is torn beside a log entry. -/
def usedStore (m : MetroSet) : Store :=
  { factoryStore with set := recOf setBytes m
                      counter := recOf counterBytes { counter := 1, code := checkWord (setBytes m) } }

def eventOne : LogEntry := { counter := 1, kind := .erase, time := none, items := [], total := 0 }

def tornStore : Store :=
  { factoryStore with counter := { factoryStore.counter with word := 0 }
                      log := factoryStore.log.set 0 (recOf logBytes (some eventOne)) }

theorem usedStore_active (m : MetroSet) : (usedStore m).loadActive = some m := by
  have hs : recPasses setBytes (usedStore m).set = true := recOf_passes _ _
  have hc : recPasses counterBytes (usedStore m).counter = true := recOf_passes _ _
  simp only [Store.loadActive, recGood, hs, hc, if_true]
  exact if_pos rfl

theorem powerUp_active (s : State) (h : s.powered = false) (m : Mode) :
    ∃ t, exec (.powerUp m) s = .next t ∧ t.cal.active = s.mst.store.loadActive := by
  refine ⟨s.powerUp m, by simp [exec, execPowerUp, h], ?_⟩
  unfold State.powerUp
  rw [(SameBut.fold [.gpt] State.raise SameBut.raise _ _).cal (by decide)]
  rfl

theorem witness_LoadJudgesSetAndCounter (m : MetroSet) :
    (State.dark (usedStore m) []).powered = false ∧ recPasses counterBytes (usedStore m).counter = true ∧
    recPasses setBytes (usedStore m).set = true ∧ (usedStore m).set.word = (usedStore m).counter.contents.code ∧
    (∃ t, exec (.powerUp .normal) (State.dark (usedStore m) []) = .next t ∧ t.cal.active = some m) ∧
    recPasses counterBytes tornStore.counter = false ∧
    after (exec (.powerUp .normal) (State.dark tornStore []))
      (fun t => t.cal.log.getLast?.isSome && t.cal.active.isNone) = true ∧
    after (exec (.powerUp .normal) unlit) (fun t => t.cal.log.isEmpty) = true := by
  refine ⟨rfl, recOf_passes _ _, recOf_passes _ _, rfl, ?_, by decide +kernel, by decide +kernel, by decide +kernel⟩
  obtain ⟨t, h, e⟩ := powerUp_active (State.dark (usedStore m) []) rfl .normal
  exact ⟨t, h, e.trans (usedStore_active m)⟩

/-- Stores with a lost serial record, with an acknowledged record behind and one beyond, and with pending records. -/
def storeWith (serial ack : Rec Nat) : Store := { factoryStore with serial := serial, ack := ack }

def firstPass (n : Nat) : Inbound := { identity := 5, serial := n, gross := 20000000, time := 1000, classCode := 0 }

theorem witness_LoadJudgesTicketsAndLog :
    (let t := storeWith { contents := 9, word := 0 } factoryStore.ack
     recPasses serialBytes t.serial = false) ∧
    (let t := storeWith (recOf serialBytes 9) (recOf serialBytes 7)
     recPasses serialBytes t.serial = true ∧ recPasses serialBytes t.ack = true ∧ t.ack.contents ≤ t.serial.contents) ∧
    (let t := storeWith (recOf serialBytes 9) (recOf serialBytes 10)
     recPasses serialBytes t.serial = true ∧ ¬ t.ack.contents ≤ t.serial.contents) ∧
    (let t := { storeWith (recOf serialBytes 9) (recOf serialBytes 7) with
       pending := (factoryStore.pending.set 3 (recOf pendingBytes (.entry (firstPass 8)))).set 4
         (recOf pendingBytes (.removed (firstPass 8) 10)) }
     after (exec (.powerUp .normal) (State.dark t []))
       (fun u => u.tku.pending.map (·.recNo) == [3, 4] && u.tku.serials == some { issued := 9, acked := 7 }
         && u.tku.ring == [{ record := .void 8 9, sent := false }])) = true ∧
    after (exec (.powerUp .normal) (State.dark tornStore []))
      (fun t => t.cal.log == [{ entry := eventOne, read := false }]) = true := by
  refine ⟨?_, ?_, ?_, ?_, ?_⟩ <;> decide +kernel

theorem witness_LoadJudgesStandings : unlit.powered = false ∧
    unlit.mst.store.verif[0]? = some { contents := .unverified, word := 0xBB5D#16 } ∧
    after (exec (.powerUp .normal) (State.dark tornStore [])) (fun t => t.decks.length == 1 && t.cal.active.isNone) = true := by
  refine ⟨?_, ?_, ?_⟩ <;> decide +kernel

/-- The bench with a job whose writes are those, the first of them in hand. -/
def writing (s : State) (js : List Job) (ws : List Write) (again : Bool) (e : Option LogEntry) : State :=
  { s with mst := { s.mst with
      jobs := js
      running := some { serial := 1, time := some 1000, counter := 0, code := 0, recNo := some 0, expiry := 5000,
                        entry := e, logSlot := 0, writes := ws, written := 0, again := again } } }

theorem witness_RecordsWrittenOrTorn :
    bench.powered = true ∧ bench.mst.running = none ∧
    (let s := writing bench [.ack 1] [.pending 3 .empty, .serial 1] false none
     s.powered = true ∧ s.mst.jobs = .ack 1 :: [] ∧
       (s.mst.running.map (fun r => (r.writes, r.again))) = some (.pending 3 .empty :: .serial 1 :: [], false)) ∧
    (let s := writing bench [.ack 1] [.serial 1] false none
     (s.mst.running.map (·.writes)) = some (.serial 1 :: [])) := by
  decide +kernel

/-- A port with nothing held, and one with a part-assembled frame. -/
theorem witness_FramesSpellCommands : bench.powered = true ∧ midFrame.powered = true ∧
    ([] : List Byte).length ≤ 509 ∧ (List.replicate 509 0#8).length ≤ 509 := by
  decide +kernel

/-- Each line of the three tables: lengths 2 and 4 of a REQUEST and a SIGNAL-less kind, a wrong and a right check word, an
unknown kind, a lane code of 2, a key code of 2, a pause after one character and after five. -/
theorem witness_DiscardedFramesCounted :
    bench.powered = true ∧ (bench.receiver .field).rx = [] ∧ (bench.receiver .gatehouse).rx = [] ∧
    inwardLength .gatehouse 0x21 = some (3, 512) ∧ inwardLength .field 0x11 = some (11, 11) ∧
    inwardLength .field 0x13 = some (10, 10) ∧ inwardLength .field 0x99 = none ∧
    ([] : List Byte).length + 1 < 3 ∧ 512 < (List.replicate 512 0#8).length + 1 ∧
    [0#8, 0#8] ≠ wordBytes (checkWord (bytesOf 2 1 ++ [0x99])) ∧ (wordBytes (checkWord (bytesOf 2 1 ++ [0x99]))).length = 2 ∧
    1 < ([2#8].getD 0 0).toNat ∧ 1 < ([0#8, 2#8].getD 1 0).toNat ∧
    ([0#8].length < 2) ∧ ([0, 2, 1, 0, 0].length < natOf ([0#8, 2, 1, 0, 0].take 2) + 4) ∧
    bench.cells.findIdx? (fun c => c.const.node == (13#8).toNat) = none ∧
    bench.cells.findIdx? (fun c => c.const.node == (14#8).toNat) = some 1 ∧
    bench.cells[1]? = some (freshCell cellB) ∧ bench.scn.isOpen = true ∧ 16#8 ≠ bench.scn.number ∧
    (let s := bench.modCell 1 fun c => { c with entry := .ok }
     s.cells[1]? = some { freshCell cellB with entry := .ok } ∧ (.ok : ReplyEntry) ≠ .notReplied) ∧
    bench.decks.length < (3#8).toNat ∧
    (let p : Crossing := { tA := 1000000, tB := 1180000, dir := .forward, duration := 180000, suspect := false, axle := none }
     let s := { bench with axt := { bench.axt with last := bench.axt.last.set 2 (some p) } }
     (2#8).toNat ≤ s.decks.length ∧ s.axt.last[2]? = some (some p) ∧ p.tA = 1000000#32 ∧ p.tB = 1180000#32) := by
  decide +kernel

def anyRequest : Request := { tag := 1, kind := 0, args := [] }
def anyAnswer : Answer := { tag := 1, kind := 0, status := .ok, body := [] }

/-- 509 characters of arguments and 510; three requests and four, three answers and four. -/
theorem witness_RequestFramesQueued :
    (List.replicate 509 0#8).length ≤ 509 ∧ 509 < (List.replicate 510 0#8).length ∧
    (let s := { bench with gpt := { bench.gpt with requests := List.replicate 3 anyRequest } }
     s.powered = true ∧ s.gpt.inward.rx = [] ∧ s.gpt.requests.length < 4) ∧
    (let s := { bench with gpt := { bench.gpt with requests := List.replicate 4 anyRequest, responses := List.replicate 3 anyAnswer } }
     s.powered = true ∧ s.gpt.inward.rx = [] ∧ 4 ≤ s.gpt.requests.length ∧ s.gpt.responses.length < 4) ∧
    (let s := { bench with gpt := { bench.gpt with requests := List.replicate 4 anyRequest, responses := List.replicate 4 anyAnswer } }
     s.powered = true ∧ s.gpt.inward.rx = [] ∧ 4 ≤ s.gpt.requests.length ∧ 4 ≤ s.gpt.responses.length) := by
  decide +kernel

/-- A scan open and none open; a CLEAR cell at the miss before its limit, on a deck that is not in FAULT, and the notice
of its fault. -/
theorem witness_ScanTimerOpensScan :
    bench.powered = true ∧ bench.scn.isOpen = true ∧ State.reset.powered = true ∧ State.reset.scn.isOpen = false ∧
    (let s := bench.modCell 0 fun c => { c with misses := 2 }
     s.powered = true ∧ s.scn.isOpen = true ∧ s.missLimit = 3 ∧
     s.cells[0]? = some { freshCell cellA with misses := 2 } ∧ (freshCell cellA).entry = .notReplied ∧
     (freshCell cellA).fault = none ∧ s.decks[0]? = some idleDeck ∧ idleDeck.fault = none ∧
     after (exec .scanTimerExpiry s) (fun t => !t.gpt.overflow &&
       t.decks.map (·.fault) == [some .cell, none] &&
       t.gpt.notices == [{ time := none, notice := .cellFault 0 12 (some .timeout) }]) = true) := by
  decide +kernel

theorem witness_FieldLineSends :
    (let s := { bench with fpt := { bench.fpt with scanWaiting := some 17 } }
     s.powered = true ∧ s.fpt.scanWaiting = some 17#8) ∧
    (bench.powered = true ∧ bench.fpt.scanWaiting = none ∧ bench.fpt.entryMark = true) ∧
    (let s := { bench with fpt := { bench.fpt with entryMark := false } }
     s.powered = true ∧ s.fpt.scanWaiting = none ∧ s.fpt.entryMark = false ∧ s.fpt.exitMark = true) := by
  decide +kernel

/-- A check of `CompletesScan` over the cells there are. -/
theorem completesScan_of (s : State) (i d : Nat)
    (h : ((List.range s.cells.length).all fun j => j == i || ((s.cells[j]?).map fun x =>
      x.const.deck != d || x.entry != .notReplied).getD true) = true)
    (hk : ((s.decks[d]?).map (·.scanLost)).getD false = false) : CompletesScan s i d := by
  refine ⟨fun j x hx hj hd => ?_, fun k e => by simpa [e] using hk⟩
  have hlt : j < s.cells.length := (List.getElem?_eq_some_iff.mp hx).1
  have := List.all_eq_true.mp h j (List.mem_range.mpr hlt)
  simpa [hx, hj, hd] using this

/-- Two cells on deck 1, the first of them with that fault and that outcome in the open scan. -/
def twoCells (f : Option CellFault) (r : ReplyEntry) : State :=
  { bench with cells := [{ freshCell { cellA with deck := 1 } with fault := f, entry := r }, freshCell cellB] }

/-- A reply that completes its deck's scan and one that does not, with the other cell FAULTED, and not replied; a cell in
FAULT two replies from clear and one; contents at the ends of their ranges and one past each; and a temperature beyond
both high thresholds. -/
theorem witness_RepliesTaken :
    (ReplyAccepted bench 14 17 1 (freshCell cellB) ∧ (freshCell cellB).fault = none ∧ CompletesScan bench 1 1) ∧
    (ReplyAccepted (twoCells (some .node) .faulted) 14 17 1 (freshCell cellB) ∧
      CompletesScan (twoCells (some .node) .faulted) 1 1 ∧ OthersFaulted (twoCells (some .node) .faulted) 1 1) ∧
    (ReplyAccepted (twoCells none .notReplied) 14 17 1 (freshCell cellB) ∧ ¬CompletesScan (twoCells none .notReplied) 1 1) ∧
    (let c : Cell := { freshCell cellB with fault := some .node, clearing := 2 }
     ReplyAccepted { bench with cells := [freshCell cellA, c] } 14 17 1 c ∧ c.fault ≠ none ∧ 2 ≤ c.clearing) ∧
    (let c : Cell := { freshCell cellB with fault := some .node, clearing := 1 }
     ReplyAccepted { bench with cells := [freshCell cellA, c] } 14 17 1 c ∧ c.fault ≠ none ∧ c.clearing < 2) ∧
    (-400 ≤ (BitVec.ofInt 16 (-400)).toInt ∧ (850#16).toInt ≤ 850 ∧ (12000#16).toNat ≤ 12000) ∧
    (¬ (-400 ≤ (BitVec.ofInt 16 (-401)).toInt) ∧ ¬ ((851#16).toInt ≤ 850) ∧ ¬ ((12001#16).toNat ≤ 12000)) ∧
    (bench.setting (23 + flagPlace .temperature .highAlarm) < 850 ∧
      bench.setting (35 + flagPlace .temperature .highAlarm) = 0 ∧
      after (exec (.cellFrame 14 17 2104553 850 10000 0) bench) (fun t => !t.gpt.overflow &&
        t.gpt.notices == [{ time := none, notice := .cellFlag 1 14 .temperature .highAlarm 850 },
          { time := none, notice := .cellFlag 1 14 .temperature .highWarning 850 }]) = true) := by
  refine ⟨⟨by unfold ReplyAccepted; decide +kernel, rfl, completesScan_of _ _ _ (by decide +kernel) (by decide +kernel)⟩,
    ⟨by unfold ReplyAccepted; decide +kernel, completesScan_of _ _ _ (by decide +kernel) (by decide +kernel),
      0, _, rfl, by decide, rfl, rfl⟩,
    ⟨by unfold ReplyAccepted; decide +kernel, fun h => h.1 0 _ rfl (by decide) rfl rfl⟩, ?_, ?_, ?_, ?_, ?_⟩ <;>
    (try unfold ReplyAccepted) <;> decide +kernel

/-- Deck 1 of the bench completes its scan with its one cell, with a zero and without, at a weight within a tenth of
Max. -/
theorem witness_CompletedScanSums :
    ReplyAccepted bench 14 17 1 (freshCell cellB) ∧ -400 ≤ (200#16).toInt ∧ (200#16).toInt ≤ 850 ∧
    (10000#16).toNat ≤ 12000 ∧ (freshCell cellB).fault = none ∧ cellB.deck = 1 ∧ bench.decks[1]? = some idleDeck ∧
    idleDeck.scanLost = false ∧ (∀ j x, bench.cells[j]? = some x → j ≠ 1 → x.const.deck = 1 → x.entry = .ok) ∧
    idleDeck.zero = some { z := 47800, init := 41000 } ∧
    (let s := bench.modDeck 1 fun k => { k with zero := none, filter := [], motionWin := List.replicate 8 (-1195) }
     ReplyAccepted s 14 17 1 (freshCell cellB) ∧
     after (exec (.cellFrame 14 17 11999 200 10000 0) s)
       (fun t => t.decks[1]?.map (·.zero) == some (some { z := -1195, init := -1195 }))) := by
  refine ⟨⟨?_, ?_, ?_, ?_, ?_, ?_⟩, ?_, ?_, ?_, ?_, ?_, ?_, ?_, ?_, ?_, ⟨?_, ?_, ?_, ?_, ?_, ?_⟩, ?_⟩ <;>
    first | decide +kernel | skip
  intro j x h hj hd
  match j, h with
  | 0, h => cases h; exact absurd hd (by decide)
  | 1, h => exact absurd rfl hj

/-- The third OK reply of a faulted cell on a deck in FAULT: cell and deck leave it, and the deck, stable, takes its
initial zero, FRESH, with its zero interval timer started and UNTRACKED cleared. -/
theorem witness_CompletedScanSums_third :
    let c : Cell := { freshCell cellB with fault := some .node, clearing := 2 }
    let s := { bench with cells := [freshCell cellA, c] }.modDeck 1 fun k =>
      { k with fault := some .cell, zero := none, w := none, filter := [], motionWin := List.replicate 8 (-1195), untracked := true }
    ReplyAccepted s 14 17 1 c ∧ (c.fault = none ∨ 2 ≤ c.clearing) ∧
    after (exec (.cellFrame 14 17 11999 200 10000 0) s) (fun t => t.decks[1]?.any fun k =>
      k.fault == none && k.zero == some { z := -1195, init := -1195 } && k.zeroStatus == .fresh &&
        k.interval == some 1800000 && !k.untracked) = true := by
  refine ⟨⟨?_, ?_, ?_, ?_, ?_, ?_⟩, ?_, ?_⟩ <;> decide +kernel

theorem witness_RoundingTakesNearest : (0 : Int) < 2 ∧ 2 * |(1 : Int) - 2 * roundDiv 1 2| = 2 := by decide +kernel

/-- The breakpoints of cell 3, with values at 0, within, at each breakpoint and past the last. -/
theorem witness_LinearityCorrection :
    (((0 : Nat), (0 : Int)) :: cellB.breaks).Pairwise (fun p q => p.1 < q.1) ∧ ((0 : Int) ≤ 0) ∧
    (((0 : Nat), (0 : Int)) :: cellB.breaks)[1]? = some (5000000, 1200) ∧
    (((0 : Nat), (0 : Int)) :: cellB.breaks)[2]? = some (10000000, 2000) ∧
    ((5000000 : Int) < 10000000 ∧ (10000000 : Int) ≤ 10000000) ∧
    (((0 : Nat), (0 : Int)) :: cellB.breaks).getLast? = some (10000000, 2000) ∧ (10000000 : Int) < 10000001 ∧
    (11156810 : Int) = saturate (roundDiv ((3200000 - (cellB.zero : Int)) * cellB.span) 65536) := by
  decide +kernel

/-- A deck that is not there, and one with all five reasons; W at 2% of Max from the initial zero and one gram past it; a
gross of half a division and one gram past it; a drift one gram past its high alarm. -/
theorem witness_ZerosSet :
    ((asked bench 3 [2]).canExecute { tag := 7, kind := 3, args := [2] } = true ∧ bench.decks.length ≤ (2#8).toNat) ∧
    (let s := { asked (bench.modDeck 1 fun k => { k with fault := some .cell, zero := none, motion := .moving, untracked := true }) 3 [1]
                with slc := { bench.slc with claims := [.none, .audit] } }
     s.canExecute { tag := 7, kind := 3, args := [1] } = true ∧
     (s.decks[1]?).map (fun k => (k.fault, k.zero, k.motion)) = some (some .cell, none, .moving) ∧
     s.axleFree 1 = false ∧ s.claimOf 1 ≠ .none) ∧
    (let s := asked (bench.modDeck 1 fun k => { k with w := some 1241000 }) 3 [1]
     s.canExecute { tag := 7, kind := 3, args := [1] } = true ∧ s.axleFree 1 = true ∧ s.claimOf 1 = .none ∧
     s.decks[1]? = some { idleDeck with w := some 1241000 } ∧ idleDeck.fault = none ∧
     idleDeck.zero = some { z := 47800, init := 41000 } ∧ idleDeck.motion = .stable ∧
     100 * |(1241000 : Int) - 41000| ≤ 2 * s.deckMax 1 ∧ 2 * s.deckMax 1 < 100 * |(1241001 : Int) - 41000|) ∧
    (let s := bench.modDeck 1 fun k => { k with w := some 57800, settle := some 0 }
     s.powered = true ∧ s.decks[1]? = some { idleDeck with w := some 57800, settle := some 0 } ∧ s.axleFree 1 = true ∧
     2 * |saturate ((57800 : Int) - 47800)| ≤ s.division ∧ ¬ 2 * |saturate ((57801 : Int) - 47800)| ≤ s.division) ∧
    (let s := bench.modDeck 1 fun k => { k with w := some 1251000, zero := some { z := 1245000, init := 41000 } }
     2 * |saturate ((1251000 : Int) - 1245000)| ≤ s.division ∧ ¬ 100 * |(1251000 : Int) - 41000| ≤ 2 * s.deckMax 1) ∧
    (let s := { bench.modDeck 1 fun k => { k with settle := some 0 } with
       cells := [freshCell cellA, { freshCell cellB with mass := some 50001 }] }
     s.cells[1]? = some { freshCell cellB with mass := some 50001 } ∧ s.setting (23 + flagPlace .drift .highAlarm) = 50000 ∧
     after (exec (.zeroSettleExpiry 1) s) (fun t => (t.cells[1]?).map (fun c => c.flags[8]) == some true) = true) := by
  decide +kernel

/-- What holds of every deck there is holds of every deck read. -/
theorem settleHeld_of (s : State) (h : ((List.range s.decks.length).all fun d => ((s.decks[d]?).map fun k =>
    (k.settle == none || k.zero != none && k.fault == none && k.motion == .stable && s.axleFree d && s.claimOf d != .audit
      && !k.checked) && (!k.checked || k.motion == .stable && s.axleFree d)).getD true) = true) : s.SettleHeld := by
  intro d k hk
  have hlt : d < s.decks.length := (List.getElem?_eq_some_iff.mp hk).1
  have := List.all_eq_true.mp h d (List.mem_range.mpr hlt)
  simp only [hk, Option.map_some, Option.getD_some, Bool.and_eq_true, Bool.or_eq_true, beq_iff_eq, bne_iff_ne,
    Bool.not_eq_true'] at this
  unfold State.SettleRuns
  obtain ⟨h1, h2⟩ := this
  refine ⟨fun e => ?_, fun e => ?_⟩
  · rcases h1 with h1 | h1
    · exact absurd h1 e
    · simp_all
  · rcases h2 with h2 | h2 <;> simp_all

def axle (n : Nat) : AxleRec := { name := n, spacing := none, duration := 180000, suspect := false }

/-- The bench with a vehicle of one axle held in slot 0 on deck `d`, in that state and with that identity. -/
def held (d : Nat) (st : SlotState) (i : Option Identity) : State :=
  { bench with
    axt := { bench.axt with line := [{ owner := .listed .slot0 (axle 0), deck := d }], nextAxle := 1 }
    slc := { bench.slc with
      claims := [if d = 0 then .slot .slot0 else .none, if d = 0 then .none else .slot .slot0]
      slot0 := { freeSlot with state := st, identity := i, quiet := decide (st = .positioned),
                               quietTimer := if st = .moving then some 500 else none } } }

/-- The bench with deck 1 full of one weight, 20,000 g below what its next sum makes of it. -/
def loading : State := bench.modDeck 1 fun k =>
  { k with settle := some 100, filter := List.replicate 4 62300, motionWin := List.replicate 8 62300 }

/-- The four timers about to expire; a settle timer that starts as the last axle leaves its deck, and one that runs on;
a change that makes a report due at once, and a change of the gross alone. -/
theorem witness_DeckTimersExpire :
    (let k := { idleDeck with interval := some 0, delay := some 0, maxInterval := some 0, zeroStatus := .fresh }
     let s := bench.modDeck 1 fun _ => k
     s.powered = true ∧ s.decks[1]? = some k ∧ k.interval ≠ none ∧ k.delay ≠ none ∧ k.maxInterval ≠ none) ∧
    ((held 1 .moving none).SettleHeld ∧ (∃ t, step { held 1 .moving none with pending := [.axleFrame 2 0 180000 0] } = .next t) ∧
      (held 1 .moving none).axleFree 1 = false ∧ Instr.isSupply (.axleFrame 2 0 180000 0) = false ∧
      after (exec (.axleFrame 2 0 180000 0) (held 1 .moving none)) (fun t => t.axleFree 1 && t.claimOf 1 != .audit &&
        (t.decks[1]?).map (fun k => (k.zero != none, k.fault == none, k.motion == .stable, k.checked, k.settle)) ==
          some (true, true, true, false, some 2000)) = true) ∧
    (loading.SettleHeld ∧ Machine.OneOperation (.cellFrame 14 17 52937 200 10000 0) loading ∧
      loading.decks[1]?.map (·.settle) = some (some 100) ∧
      after (exec (.cellFrame 14 17 52937 200 10000 0) loading) (fun t =>
        loading.watch 1 == t.watch 1 && loading.reportGross 1 != t.reportGross 1 && t.decks[1]?.map (·.delay) == some (some 250) &&
        t.decks[1]?.map (·.settle) == some (some 100)) = true) ∧
    (let s := bench.modDeck 1 fun k => { k with interval := some 0, zeroStatus := .fresh }
     after (exec (.zeroIntervalExpiry 1) s) (fun t => s.watch 1 != t.watch 1) = true) := by
  refine ⟨?_, ⟨settleHeld_of _ (by decide +kernel), ⟨_, rfl⟩, ?_⟩, ⟨settleHeld_of _ (by decide +kernel),
    ⟨fun p cs => ⟨fun h => (nomatch h), fun h => (nomatch h)⟩, fun p h => by cases h; rfl⟩, ?_⟩, ?_⟩ <;> decide +kernel

/-- A change of the gross alone, and an expiry that makes the zero STALE. -/
theorem witness_DeckTimersExpire_report :
    (∃ t, exec (.cellFrame 14 17 52937 200 10000 0) loading = .next t ∧ ¬ReportDue loading t 1) ∧
    (let s := bench.modDeck 1 fun k => { k with interval := some 0, zeroStatus := .fresh }
     ∃ t, exec (.zeroIntervalExpiry 1) s = .next t ∧ ReportDue s t 1) := by
  refine ⟨⟨_, rfl, fun h => ?_⟩, _, rfl, ?_⟩
  · exact absurd ((reportDue_iff _ _ 1 (Option.some_get (by decide +kernel)).symm
      (Option.some_get (by decide +kernel)).symm).mp h) (by decide +kernel)
  · exact (reportDue_iff _ _ 1 (Option.some_get (by decide +kernel)).symm
      (Option.some_get (by decide +kernel)).symm).mpr (by decide +kernel)

/-- The vehicle of `held`, with the boundary's last crossing that of its axle (03_axle_tracking.md, the six-axle truck). -/
def crossed : State :=
  let p : Crossing := { tA := 0, tB := 178000, dir := .forward, duration := 178000, suspect := false, axle := some (.slot0, 0) }
  { held 0 .moving none with axt := { (held 0 .moving none).axt with last := bench.axt.last.set 0 (some p) } }

/-- A stray on deck 0 before a claimed deck 1, a list of 12 axles, and 64 strays. -/
def strayAhead : State :=
  { held 1 .moving none with axt := { (held 1 .moving none).axt with
      line := (held 1 .moving none).axt.line ++ [{ owner := .stray, deck := 0 }] } }

def fullList : State :=
  { held 0 .moving none with axt := { bench.axt with
      line := (List.range 12).map fun n => { owner := .listed .slot0 (axle n), deck := 0 }, nextAxle := 12 } }

def manyStrays : State := { bench with axt := { bench.axt with line := List.replicate 64 { owner := .stray, deck := 0 } } }

/-- Both directions at the entry, between the decks and at the exit: d = 1, 2,147,483,647 and 2,147,483,648; a spacing
measured; a full list, no room for a stray, and a stray moved onto a claimed deck. -/
theorem witness_CrossingsMoveEntries :
    bench.powered = true ∧ bench.fpt.inward.rx = [] ∧ (0#8).toNat ≤ bench.decks.length ∧ (2#8).toNat ≤ bench.decks.length ∧
    (∀ p, bench.axt.last[(0#8).toNat]? = some (some p) → ¬(p.tA = 0#32 ∧ p.tB = 1#32)) ∧
    ((1#32).toNat + 4294967296 - (0#32).toNat) % 4294967296 = 1 ∧
    ((0x7FFFFFFF#32).toNat + 4294967296 - (0#32).toNat) % 4294967296 = 2147483647 ∧
    ¬ (((0x80000000#32).toNat + 4294967296 - (0#32).toNat) % 4294967296 ≤ 2147483647) ∧
    (bench.claimOf 0 = .none ∧ bench.openAnswer = .opened .slot0) ∧
    ((held 0 .moving none).claimOf 0 = .slot .slot0 ∧ (held 0 .moving none).frontOn 0 = some 0 ∧
      (held 0 .moving none).leaverAtEntry = some 0 ∧ (held 1 .moving none).frontOn 0 = none ∧
      (held 1 .moving none).leaverAtEntry = none ∧ (held 1 .moving none).frontOn 1 = some 0 ∧
      (held 1 .moving none).rearOn 1 = some 0 ∧ (held 0 .moving none).rearOn 1 = none ∧
      (held 1 .moving none).claimOf 1 = .slot .slot0) ∧
    (((held 0 .moving none).axleList .slot0).length < 12 ∧ 12 ≤ (fullList.axleList .slot0).length ∧
      fullList.overflowCount .slot0 < 8 ∧ fullList.claimOf 0 = .slot .slot0) ∧
    (let s := { bench with slc := { bench.slc with claims := [.audit, .none] } }
     s.claimOf 0 = .audit ∧ s.strayRoom = true) ∧
    (let s := { held 1 .moving none with slc := { (held 1 .moving none).slc with slot1 := { freeSlot with state := .leaving } } }
     s.claimOf 0 = .none ∧ s.openAnswer = .noSlot ∧ s.strayRoom = true) ∧
    (bench.claimOf 1 = .none ∧ bench.strayRoom = true ∧ manyStrays.strayRoom = false ∧ manyStrays.openAnswer ≠ .opened .slot0 ∧
      manyStrays.openAnswer ≠ .opened .slot1) ∧
    (strayAhead.crossingMover 1 true = some 1 ∧ strayAhead.axt.line[1]? = some { owner := .stray, deck := 0 } ∧
      strayAhead.crossingReach 1 true = some 1 ∧ strayAhead.claimOf 1 ≠ .none) := by
  refine ⟨?_, ?_, ?_, ?_, ?_, ?_, ?_, ?_, ?_, ?_, ?_, ?_, ?_, ?_, ?_⟩ <;> first | decide +kernel | skip
  intro p h
  exact absurd h (by simp [bench, State.reset])

theorem witness_CrossingsMoveEntries_spacing : crossed.NamesFresh ∧
    ∃ t, exec (.axleFrame 0 1296000 1476000 0) crossed = .next t ∧
      SpacingMeasured crossed t 0 1296000#32 true false 180000 .slot0 1 3620 ∧
      (t.axleList .slot0).map (·.1.spacing) = [none, some 3620] :=
  ⟨⟨by decide +kernel, by decide +kernel⟩, _, rfl,
    ⟨_, { tA := 1296000, tB := 1476000, dir := .forward, duration := 180000, suspect := false, axle := some (.slot0, 1) },
      1, 0, [], [], rfl, by decide +kernel, rfl, rfl, by decide, rfl, rfl, by decide +kernel, by decide +kernel⟩,
    by decide +kernel⟩

/-- The entry's crossing leaves the axle it adds in its list, and the record names it; a stray's crossing names none. -/
theorem witness_CrossingsMoveEntries_record :
    CrossingLeaves bench 0 true .slot0 0 ∧
    after (exec (.axleFrame 0 0 180000 0) bench) (fun t =>
      (t.axt.last[0]).any fun p => p.axle == some (.slot0, 0)) = true ∧
    after (exec (.axleFrame 1 0 180000 0) strayAhead) (fun t => (t.axt.last[1]).any fun p => p.axle == none) = true :=
  ⟨.inr ⟨rfl, by decide +kernel, .inl ⟨rfl, rfl, .inr ⟨by decide +kernel, by decide +kernel⟩⟩⟩, by decide +kernel,
    by decide +kernel⟩

theorem grounded_of (s : State) (hf : ∀ u ∈ [SlotId.slot0, .slot1], (s.slot u).state = .free → s.hasAxles u = false)
    (hc : ∀ u ∈ [SlotId.slot0, .slot1], s.hasAxles u = false → s.runOf u = []) (hq : s.commitQueued = false) :
    s.SlotsGrounded :=
  ⟨fun u => hf u (by cases u <;> simp), fun u => hc u (by cases u <;> simp), fun h => by simp [hq] at h⟩

/-- A slot that opens, with and without a waiting identity; one extended and trimmed, with the released deck offered to
the other slot; one whose last axle leaves; and a crossing that moves no axle. -/
theorem witness_MovesClaimDecks :
    (bench.SlotsGrounded ∧ (bench.slot .slot0).state = .free ∧ 0 < bench.slc.claims.length ∧ bench.claimOf 0 = .none ∧
      bench.strayCount 0 = 0 ∧ idleDeck.untracked = false ∧ bench.slc.commitMark = false ∧ bench.slc.waiting = none ∧
      (bench.holdIdentity 5).slc.waiting = some 5 ∧
      ((bench.holdIdentity 5).slot (otherSlot .slot0)).identity ≠ some 5) ∧
    (MovesAxleOf (held 0 .moving none) 1 true .slot0 ∧
      after (exec (.axleFrame 1 0 180000 0) (held 0 .moving none)) (fun t =>
        t.slc.claims == [.none, .slot .slot0] && t.hasAxles .slot0) = true) ∧
    (let s := { held 0 .moving none with
       axt := { bench.axt with nextAxle := 2, line := [{ owner := .listed .slot0 (axle 0), deck := 0 },
         { owner := .listed .slot1 (axle 1), deck := 0 }] }
       slc := { (held 0 .moving none).slc with slot1 := { freeSlot with state := .moving } } }
     MovesAxleOf s 1 true .slot0 ∧ after (exec (.axleFrame 1 0 180000 0) s) (fun t =>
       t.slc.claims == [.slot .slot1, .slot .slot0]) = true) ∧
    (MovesAxleOf (held 1 .moving none) 2 true .slot0 ∧ ((held 1 .moving none).slot .slot0).state ≠ .free ∧
      after (exec (.axleFrame 2 0 180000 0) (held 1 .moving none)) (fun t =>
        !t.hasAxles .slot0 && decide ((t.slot .slot0).state = .free)) = true) ∧
    (∀ u, ¬MovesAxleOf bench 1 true u) := by
  refine ⟨⟨grounded_of _ (by decide +kernel) (by decide +kernel) (by decide +kernel), ?_⟩,
    ⟨Or.inl ⟨0, _, rfl, rfl, rfl⟩, ?_⟩, ⟨Or.inl ⟨0, _, rfl, rfl, rfl⟩, ?_⟩,
    ⟨Or.inl ⟨0, _, rfl, rfl, rfl⟩, ?_, ?_⟩, ?_⟩ <;> first | decide +kernel | skip
  rintro u (⟨i, x, h, -⟩ | ⟨-, h | h⟩)
  · have e : bench.crossingMover 1 true = none := by decide +kernel
    simp [e] at h
  · exact absurd h.2.1 (by decide)
  · exact absurd h.1 (by decide)

theorem witness_LineKeepsOrder : (held 0 .moving none).LineOrdered ∧ (held 0 .moving none).SlotsGrounded ∧
    (held 0 .moving none).DecksThere ∧ (held 0 .moving none).OneJobEach ∧ (held 0 .moving none).NamesFresh ∧
    ∃ t, step { held 0 .moving none with pending := [.axleFrame 1 0 180000 0] } = .next t ∧
      t.lineShape = [(some .slot0, 1)] := by
  refine ⟨⟨List.pairwise_singleton _ _, by decide +kernel⟩,
    grounded_of _ (by decide +kernel) (by decide +kernel) (by decide +kernel),
    ⟨by decide +kernel, by decide +kernel, by decide +kernel, fun r m h => (nomatch h)⟩, List.nodup_nil,
    ⟨by decide +kernel, by decide +kernel⟩, _, rfl, by decide +kernel⟩

theorem witness_QuietTimerPositions :
    ((held 0 .moving none).powered = true ∧ ((held 0 .moving none).slot .slot0).quietTimer ≠ none ∧
      ((held 0 .moving none).slot .slot0).state = .moving) ∧
    (let s := (held 0 .leaving none).setSlot .slot0 { freeSlot with state := .leaving, quietTimer := some 0 }
     (s.slot .slot0).quietTimer ≠ none ∧ (s.slot .slot0).state ≠ .moving) := by
  decide +kernel

theorem witness_IdentitiesTaken :
    bench.powered = true ∧ bench.fpt.inward.rx = [] ∧ (held 0 .moving none).fpt.inward.rx = [] ∧
    bench.entrySlot = none ∧ bench.slc.slot0.identity ≠ some 5 ∧ bench.slc.slot1.identity ≠ some 5 ∧
    (5 : Identity) ≠ 0#64 ∧
    (let s := held 0 .moving none
     s.entrySlot = some .slot0 ∧ (s.slot (otherSlot .slot0)).identity ≠ some 5) ∧
    (let s := (held 0 .moving none).setSlot .slot1 { freeSlot with state := .leaving, identity := some 5 }
     s.entrySlot = some .slot0 ∧ (s.slot (otherSlot .slot0)).identity = some 5) ∧
    ((held 1 .moving (some 5)).entrySlot = none ∧ (held 1 .moving (some 5)).slc.slot0.identity = some 5) ∧
    (let s := { held 0 .moving none with slc := { (held 0 .moving none).slc with bars := bench.slc.bars.set 0 0x20 } }
     after (exec (.identFrame .entry 5) s) (fun t => t.slc.slot0.barred) = true) := by
  decide +kernel

theorem witness_WaitingIdentityHeld : bench.powered = true ∧ bench.entrySlot = none ∧ (5 : Identity) ≠ 0#64 ∧
    bench.slc.slot0.identity ≠ some 5 ∧ bench.slc.slot1.identity ≠ some 5 ∧ bench.fpt.inward.rx = [] ∧
    (bench.holdIdentity 5).powered = true ∧ (bench.holdIdentity 5).slc.waitingTimer ≠ none ∧
    bench.slc.waiting = none ∧ (bench.holdIdentity 5).slc.waiting = some 5 ∧
    ((bench.holdIdentity 5).slot (otherSlot .slot0)).identity ≠ some 5 ∧ unlit.powered = false ∧
    (asked bench 20 [0]).canExecute { tag := 7, kind := 20, args := [0] } = true := by
  decide +kernel

theorem witness_SlotsAborted :
    (asked bench 5 [2]).canExecute { tag := 7, kind := 5, args := [2] } = true ∧ 1 < (2#8).toNat ∧
    (asked bench 5 [0]).canExecute { tag := 7, kind := 5, args := [0] } = true ∧ 0#8 = slotCode .slot0 ∧
    ((asked bench 5 [0]).slot .slot0).state = .free ∧
    ((asked (held 0 .issuing none) 5 [0]).slot .slot0).state = .issuing ∧
    ((asked (held 0 .moving none) 5 [0]).slot .slot0).state = .moving ∧
    (held 0 .moving none).powered = true ∧ (held 0 .moving none).fpt.inward.rx = [] ∧
    (held 0 .moving none).laneSlot .entry = some .slot0 ∧ ((held 0 .moving none).slot .slot0).state = .moving ∧
    bench.fpt.inward.rx = [] ∧ bench.laneSlot .entry = none ∧ (held 0 .issuing none).laneSlot .entry = some .slot0 := by
  decide +kernel

theorem witness_ReIdentAttaches :
    (asked bench 4 (2 :: bytesOf 8 5)).canExecute { tag := 7, kind := 4, args := 2 :: bytesOf 8 5 } = true ∧
    1 < (2#8).toNat ∧ 0#8 = slotCode .slot0 ∧ (5 : Identity) ≠ 0#64 ∧
    ((bench.slot .slot0).state ≠ .moving ∧ (bench.slot .slot0).state ≠ .positioned ∧
      (bench.slot .slot0).identity = none) ∧
    (((held 0 .moving none).slot .slot0).state = .moving ∧ ((held 0 .moving none).slot .slot0).identity = none ∧
      ((held 0 .moving none).slot (otherSlot .slot0)).identity ≠ some 5) ∧
    ((((held 0 .moving none).setSlot .slot1 { freeSlot with identity := some 5 }).slot (otherSlot .slot0)).identity =
      some 5) ∧ (bench.holdIdentity 5).slc.waiting = some 5 ∧
    ((asked (held 0 .moving (some 6)) 4 (0 :: bytesOf 8 5)).canExecute { tag := 7, kind := 4, args := 0 :: bytesOf 8 5 } =
      true ∧ ((held 0 .moving (some 6)).slot .slot0).identity ≠ none) ∧
    (((held 0 .issuing (some 6)).slot .slot0).state = .issuing ∧ ((held 0 .issuing (some 6)).slot .slot0).identity ≠ none ∧
      after (exec (.reIdent 7 0 5) (asked (held 0 .issuing (some 6)) 4 (0 :: bytesOf 8 5))) (fun t =>
        t.gpt.responses == [{ tag := 7, kind := 4, status := .notReady, body := nameSet ["SLOT_STATE", "HAS_IDENTITY"] }]) =
        true) := by
  decide +kernel

theorem witness_StraysCleared :
    (let s := asked { bench with axt := { bench.axt with line := [{ owner := .stray, deck := 0 }] } } 6 []
     s.canExecute { tag := 7, kind := 6, args := [] } = true ∧ s.lineShape = [(none, 0)]) ∧
    (let s := asked (held 0 .moving none) 6 []
     s.canExecute { tag := 7, kind := 6, args := [] } = true ∧ s.hasAxleOn .slot0 0 = true) := by
  decide +kernel

/-- A step of the bench with a vehicle on it, from a state that meets the invariant. -/
theorem witness_IdentitiesStayApart : (held 0 .moving (some 5)).IdentitiesApart ∧
    ∃ t, step { held 0 .moving (some 5) with pending := [.laneKeyCancel .entry] } = .next t := by
  refine ⟨?_, _, rfl⟩
  intro i h
  simp [held, bench, State.reset, freeSlot]

theorem witness_MarksStayTrue : (held 0 .moving none).MarksTrue ∧
    ∃ t, step { held 0 .moving none with pending := [.laneKeyCancel .entry] } = .next t :=
  ⟨fun u => by cases u <;> decide +kernel, _, rfl⟩

/-- A crossing onto the deck another slot claims. -/
theorem witness_MarksStayTrue_breach :
    let s := { held 0 .moving none with
      axt := { bench.axt with nextAxle := 2, line := [{ owner := .listed .slot1 (axle 1), deck := 1 },
        { owner := .listed .slot0 (axle 0), deck := 0 }] }
      slc := { (held 0 .moving none).slc with claims := [.slot .slot0, .slot .slot1],
                                              slot1 := { freeSlot with state := .moving } } }
    s.MarksTrue ∧ s.SlotsGrounded ∧ Machine.OneOperation (.axleFrame 1 0 180000 0) s ∧
    ∃ t, exec (.axleFrame 1 0 180000 0) s = .next t ∧ (s.slot .slot0).spanBreach = false ∧
      (t.slot .slot0).spanBreach = true ∧ BreachesOn t .slot0 1 ∧ BreachCauseIs t 1 .slot1 ∧
      t.gpt.notices = [{ time := none, notice := .spanBreach .slot0 1 .slot1 }] :=
  ⟨fun u => by cases u <;> decide +kernel, grounded_of _ (by decide +kernel) (by decide +kernel) (by decide +kernel),
    ⟨fun p cs => ⟨fun h => (nomatch h), fun h => (nomatch h)⟩, fun p h => by cases h; rfl⟩, _, rfl, by decide +kernel,
    by decide +kernel,
    ⟨[{ owner := .listed .slot1 (axle 1), deck := 1 }],
      { owner := .listed .slot0 { axle 0 with duration := 180000 }, deck := 1 }, [], by decide +kernel, rfl, rfl,
      by decide +kernel, by decide +kernel⟩, by unfold BreachCauseIs; decide +kernel, by decide +kernel⟩

theorem witness_LanesStayTold : bench.LanesTold ∧ ∃ t, step { bench with pending := [.sendSignal] } = .next t ∧
    t.fpt.entryMark = false :=
  ⟨⟨fun h => (nomatch h), fun h => (nomatch h)⟩, _, rfl, by decide +kernel⟩

/-- Each aspect: an empty bridge, a vehicle at the entry, and at the exit one LEAVING, held OVER, in breach, and moving. -/
theorem witness_LanesStayTold_aspects :
    let at1 := fun (st : SlotState) (stopped breach : Bool) =>
      { held 1 st none with slc := { (held 1 st none).slc with
          slot0 := { (held 1 st none).slc.slot0 with overHeld := stopped, spanBreach := breach } } }
    (bench.SlotsGrounded ∧ (held 0 .moving none).SlotsGrounded ∧ (at1 .leaving true true).SlotsGrounded ∧
      (at1 .positioned true true).SlotsGrounded ∧ (at1 .positioned false true).SlotsGrounded) ∧
    [bench, held 0 .moving none, at1 .leaving true true, at1 .positioned true true, at1 .positioned false true,
      at1 .positioned false false].map (fun s => (s.entryAspect, s.exitAspect)) =
    [(.enter, .hold), (.stop, .hold), (.enter, .go), (.enter, .seeOffice), (.enter, .reposition), (.enter, .hold)] := by
  refine ⟨⟨?_, ?_, ?_, ?_, ?_⟩, by decide +kernel⟩ <;>
    exact grounded_of _ (by decide +kernel) (by decide +kernel) (by decide +kernel)

theorem witness_ChecksKeepStanding : (held 0 .moving none).ChecksStand ∧
    ∃ t, step { held 0 .moving none with pending := [.quietTimerExpiry .slot0] } = .next t ∧
      t.slc.slot0.state = .positioned :=
  ⟨fun u => by cases u <;> rfl, _, rfl, by decide +kernel⟩

/-! A vehicle ready for its ticket: one axle on deck 0 at 20,000,000 g net of the zero. -/

def singleClass : ClassEntry :=
  { code := 11, pattern := [.single], limits := [20000000], grossLimit := 20000000, tolerance := 0, hold := true }

def ready (i : Option Identity) : State :=
  { held 0 .positioned i with
    decks := [{ idleDeck with w := some 20047800, zeroStatus := .fresh }, idleDeck]
    classes := bench.classes.set 0 (some singleClass)
    aud := { bench.aud with standings := [.verified 5000, .unverified] }
    gpt := { bench.gpt with time := some 1000 } }

/-- The class found, its limits as many as its group positions, with each overall verdict but INDETERMINATE; the class not
found; an overflow mark. -/
theorem witness_VerdictsFollowLimits :
    bench.classOf .slot0 = none ∧ (ready none).classOf .slot0 = some (singleClass, .pattern) ∧
    singleClass.limits.length = singleClass.pattern.length ∧
    ((ready none).slot .slot0).axleOverflow = false ∧ ((ready none).computeCheck .slot0).overall = .pass ∧
    (let s := (ready none).setSlot .slot0 { freeSlot with axleOverflow := true }
     (s.slot .slot0).axleOverflow = true) := by
  decide +kernel

/-- The group lists of a check of slot 0, and a vehicle with a permit for class code 11, that class being `e`. -/
def groupsOf (s : State) : List (Option (Nat × Nat) × Option (Nat × Nat) × Option Int × Option CheckReason) :=
  (s.computeCheck .slot0).groups.map fun g => (g.axles, g.decks, g.load, g.reason)

def permitted (e : ClassEntry) : State :=
  let s := ready (some 5)
  { s with
    classes := bench.classes.set 3 (some e)
    slc := { s.slc with permits := bench.slc.permits.set 0 { identity := 5, classCode := 11, tare := none, valid := true }
                        slot0 := { s.slc.slot0 with permit := some 0 } } }

/-- A group weighed; one on a deck that moves and one on a deck without a zero; a class by permit, of the pattern found and
of another; and the lost list. -/
theorem witness_VerdictsFollowLimits_groups :
    groupsOf (ready none) = [(some (1, 1), some (0, 0), some 20000000, none)] ∧
    groupsOf ((ready none).modDeck 0 fun k => { k with motion := .moving }) =
      [(some (1, 1), some (0, 0), none, some .moving)] ∧
    groupsOf ((ready none).modDeck 0 fun k => { k with zero := none }) =
      [(some (1, 1), some (0, 0), none, some .noGross)] ∧
    (permitted singleClass).classOf .slot0 = some (singleClass, .permit) ∧
    groupsOf (permitted singleClass) = [(some (1, 1), some (0, 0), some 20000000, none)] ∧
    groupsOf (permitted { singleClass with pattern := [.tandem] }) = [(none, none, none, some .pattern)] ∧
    groupsOf ((permitted singleClass).setSlot .slot0 { (permitted singleClass).slc.slot0 with axleOverflow := true }) =
      [(none, none, none, some .overflow)] := by
  refine ⟨?_, ?_, ?_, ?_, ?_, ?_, ?_⟩ <;> decide +kernel

/-- A slot that enters POSITIONED, one to which nothing comes, and one that CANCEL sends on its way. -/
theorem witness_ChecksKeepStanding_events :
    (∃ t, exec (.quietTimerExpiry .slot0) (held 0 .moving none) = .next t ∧
      CheckEvent (held 0 .moving none) t .slot0 ∧ (t.slot .slot0).state = .positioned) ∧
    (let s := (ready none).refreshCheck .slot0
     Machine.OneOperation .sendScan s ∧ ∃ t, exec .sendScan s = .next t ∧ ¬CheckEvent s t .slot0 ∧
       (t.slot .slot0).state = .positioned) ∧
    (let s := (ready none).refreshCheck .slot0
     (s.slot .slot0).check = .current ((ready none).computeCheck .slot0) ∧
     ∃ t, exec (.laneKeyCancel .entry) s = .next t ∧ (t.slot .slot0).state = .leaving) := by
  refine ⟨⟨_, rfl, .inl (by decide +kernel), by decide +kernel⟩,
    ⟨⟨fun p cs => ⟨fun h => (nomatch h), fun h => (nomatch h)⟩, fun p h => (nomatch h)⟩, _, rfl, ?_, by decide +kernel⟩,
    by decide +kernel, _, rfl, by decide +kernel⟩
  rintro (h | h | ⟨d, h⟩ | ⟨d, -, h⟩)
  · exact h (by decide +kernel)
  · exact h rfl
  · exact h Iff.rfl
  · rcases h with h | h | h
    · exact h Iff.rfl
    · exact h rfl
    · exact h rfl

/-- A ring with that many sent records. -/
def withRing (s : State) (n : Nat) : State :=
  { s with tku := { s.tku with ring := List.replicate n { record := .void 1 1, sent := true } } }

theorem witness_FinalizationsAccepted :
    (asked (ready none) 7 [0, 4]).canExecute { tag := 7, kind := 7, args := [0, 4] } = true ∧
    slotOf 0 = some .slot0 ∧ kindOf 4 = some (some .spot) ∧ kindOf 5 = some none ∧
    FinalizeReady (asked (ready none) 7 [0, 4]) .slot0 (some .spot) .spot ∧
    FinalizeReady (asked (ready (some 5)) 7 [0, 5]) .slot0 none .grossIn ∧
    (ready (some 5)).powered = true ∧ (ready (some 5)).fpt.inward.rx = [] ∧ (ready (some 5)).laneSlot .entry = some .slot0 ∧
    FinalizeReady (ready (some 5)) .slot0 none .grossIn ∧
    (FinalizeReady (withRing (ready (some 5)) 55) .slot0 none .grossIn ∧
      (withRing (ready (some 5)) 55).ringFree = (withRing (ready (some 5)) 55).ringLow + 1 ∧
      (ready (some 5)).ringFree ≠ (ready (some 5)).ringLow + 1 ∧
      after (exec (.laneKeyPrint .entry) (withRing (ready (some 5)) 55)) (fun t =>
        t.gpt.notices == [{ time := some 1000, notice := .ringLow 8 }]) = true) := by
  refine ⟨?_, ?_, ?_, ?_, ⟨?_, ?_, ⟨_, rfl, ?_⟩, ?_, ?_, ?_, ?_, ?_⟩, ⟨?_, ?_, ⟨_, rfl, ?_⟩, ?_, ?_, ?_, ?_, ?_⟩, ?_, ?_, ?_,
    ⟨?_, ?_, ⟨_, rfl, ?_⟩, ?_, ?_, ?_, ?_, ?_⟩, ⟨?_, ?_, ⟨_, rfl, ?_⟩, ?_, ?_, ?_, ?_, ?_⟩, ?_⟩ <;>
    decide +kernel

/-- A TARE-OUT with its pending entry, a STORED-NET with its permit. -/
theorem witness_FinalizationsAccepted_weights :
    (let s := { ready (some 5) with tku := { (ready (some 5)).tku with
        pending := [{ inbound := { firstPass 8 with gross := 40000000 }, recNo := 3 }] } }
     s.slotPending .slot0 = some { inbound := { firstPass 8 with gross := 40000000 }, recNo := 3 } ∧
     s.resolveAuto .slot0 = .tareOut ∧ (s.computeCheck .slot0).gross = some 20000000) ∧
    (let p : Permit := { identity := 5, classCode := 0, tare := some (8000000, 900), valid := true }
     let s := { ready (some 5) with slc := { (ready (some 5)).slc with
        permits := bench.slc.permits.set 0 p, slot0 := { (ready (some 5)).slc.slot0 with permit := some 0 } } }
     s.slotPermit .slot0 = some p ∧ p.tare = some (8000000, 900) ∧ s.resolveAuto .slot0 = .storedNet ∧
     (s.refreshCheck .slot0).finalizeReasons .slot0 .storedNet (s.computeCheck .slot0) = []) := by
  decide +kernel

/-- AUTO in each of its cases: a usable pending entry, a stored tare within its validity, an identity, none. -/
theorem witness_FinalizationsAccepted_auto :
    (let e : PendingEntry := { inbound := firstPass 8, recNo := 3 }
     let s := { ready (some 5) with tku := { (ready (some 5)).tku with pending := [e] } }
     UsableFor s .slot0 e ∧ s.resolveAuto .slot0 = .tareOut) ∧
    (let p : Permit := { identity := 5, classCode := 0, tare := some (8000000, 900), valid := true }
     let s := { ready (some 5) with slc := { (ready (some 5)).slc with
        permits := bench.slc.permits.set 0 p, slot0 := { (ready (some 5)).slc.slot0 with permit := some 0 } } }
     (∀ e, ¬UsableFor s .slot0 e) ∧ HasPermit s .slot0 p ∧ TareWithin s 1000 900 ∧ s.resolveAuto .slot0 = .storedNet) ∧
    ((∀ e, ¬UsableFor (ready (some 5)) .slot0 e) ∧ (∀ q, ¬HasPermit (ready (some 5)) .slot0 q) ∧
      (ready (some 5)).resolveAuto .slot0 = .grossIn ∧ (ready none).resolveAuto .slot0 = .spot) := by
  refine ⟨⟨⟨?_, rfl, ?_⟩, by decide +kernel⟩, ⟨?_, ⟨0, rfl, rfl⟩, ?_, by decide +kernel⟩, ?_, ?_, by decide +kernel,
    by decide +kernel⟩
  · exact List.mem_singleton.mpr rfl
  · rintro (⟨_, h, _⟩ | ⟨_, h, _⟩) <;> exact nomatch h
  · rintro e ⟨h, _⟩
    exact nomatch h
  · unfold TareWithin
    decide +kernel
  · rintro e ⟨h, _⟩
    exact nomatch h
  · rintro q ⟨_, h, _⟩
    exact nomatch h

/-- A POSITIONED slot with a vehicle ready for its ticket, asked to finalize as SPOT, GROSS-IN and TARE-OUT, in a state
that each line of the table refuses. -/
theorem witness_FinalizationsRefused :
    (asked (ready none) 7 [2, 0]).canExecute { tag := 7, kind := 7, args := [2, 0] } = true ∧ 1 < (2#8).toNat ∧
    (asked (ready none) 7 [1, 6]).canExecute { tag := 7, kind := 7, args := [1, 6] } = true ∧
    5 < (6#8).toNat ∧ (1#8).toNat ≤ 1 ∧ slotOf 0 = some .slot0 ∧ kindOf 0 = some (some .grossIn) ∧
    kindOf 1 = some (some .tareOut) ∧
    (let s := asked (ready none) 7 [0, 0]
     s.canExecute { tag := 7, kind := 7, args := [0, 0] } = true ∧ (s.slot .slot0).state = .positioned ∧
     s.cal.mode = .normal ∧ s.mst.storeFault = false ∧ s.tku.serials = some { issued := 0, acked := 0 } ∧ 0 < max32 ∧
     s.jobQueued (.slot .slot0) = false ∧
     (s.refreshCheck .slot0).finalizeReasons .slot0 .grossIn (s.computeCheck .slot0) ≠ [] ∧ s.slotPending .slot0 = none) ∧
    ((asked (held 0 .issuing none) 7 [0, 0]).canExecute { tag := 7, kind := 7, args := [0, 0] } = true ∧
      ((held 0 .issuing none).slot .slot0).state = .issuing ∧ ((held 0 .moving none).slot .slot0).state = .moving) ∧
    (let s := { asked (ready none) 7 [0, 0] with cal := { bench.cal with mode := .cal } }
     s.canExecute { tag := 7, kind := 7, args := [0, 0] } = true ∧ s.cal.mode = .cal) ∧
    (let s := { asked (ready none) 7 [0, 0] with mst := { bench.mst with storeFault := true } }
     s.canExecute { tag := 7, kind := 7, args := [0, 0] } = true ∧ s.mst.storeFault = true) ∧
    (let s := { asked (ready none) 7 [0, 0] with tku := { bench.tku with serials := none } }
     s.canExecute { tag := 7, kind := 7, args := [0, 0] } = true ∧ s.tku.serials = none) ∧
    (let s := { asked (ready none) 7 [0, 0] with tku := { bench.tku with serials := some { issued := max32, acked := 0 } } }
     s.canExecute { tag := 7, kind := 7, args := [0, 0] } = true ∧ s.tku.serials = some { issued := max32, acked := 0 }) := by
  decide +kernel

/-- A PRINT key with no slot at its lane, a slot that is MOVING, and a POSITIONED slot in CAL mode. -/
theorem witness_FinalizationsRefused_print :
    bench.fpt.inward.rx = [] ∧ bench.laneSlot .entry = none ∧ (held 0 .moving none).laneSlot .entry = some .slot0 ∧
    ((held 0 .moving none).slot .slot0).state ≠ .positioned ∧
    (let s := { ready none with cal := { bench.cal with mode := .cal } }
     s.powered = true ∧ s.fpt.inward.rx = [] ∧ s.laneSlot .entry = some .slot0 ∧ (s.slot .slot0).state = .positioned ∧
     (∀ k, ¬FinalizeReady s .slot0 none k) ∧
     after (exec (.laneKeyPrint .entry) s) (fun t => t.gpt.responses == []) = true) := by
  refine ⟨?_, ?_, ?_, ?_, ?_, ?_, ?_, ?_, fun k h => absurd h.mode (by decide), ?_⟩ <;> decide +kernel

/-- A PRINT refused by HOLD_ON_OVER alone of its conditions, and one an earlier line refuses. -/
theorem witness_FinalizationsRefused_held :
    (let s := { ready (some 5) with classes := bench.classes.set 0 (some { singleClass with limits := [10000000] }) }
     (∀ k, ¬FinalizeReady s .slot0 none k) ∧ s.cal.mode = .normal ∧ s.jobQueued (.slot .slot0) = false ∧
     after (exec (.laneKeyPrint .entry) s) (fun t => t.slc.slot0.overHeld && t.mst.jobs == []) = true) ∧
    (let s := { ready (some 5) with cal := { bench.cal with mode := .cal } }
     (∀ k, ¬FinalizeReady s .slot0 none k) ∧
     after (exec (.laneKeyPrint .entry) s) (fun t => !t.slc.slot0.overHeld) = true) := by
  refine ⟨⟨fun k h => ?_, by decide +kernel, by decide +kernel, by decide +kernel⟩,
    fun k h => absurd h.mode (by decide), by decide +kernel⟩
  have hr := h.reasons
  rw [h.kind] at hr
  exact absurd hr (by decide +kernel)

/-- The reasons that refuse a vehicle without time, class, gross or verified deck, as GROSS-IN. -/
theorem witness_FinalizationsRefused_reasons :
    (held 0 .positioned none).finalizeReasons .slot0 .grossIn ((held 0 .positioned none).computeCheck .slot0) =
      [.timeUnset, .zeroStale, .unverified, .minGross, .noIdentity] := by
  decide +kernel

/-- The serials 6 to 9 unacknowledged, with a VOID record for them. -/
def issuedNine : State :=
  { bench with tku := { bench.tku with
      serials := some { issued := 9, acked := 5 }, ring := [{ record := .void 6 9, sent := true }] } }

/-- A serial past the last issued, the last issued, and the acknowledged one; an ACK job queued, writing and absent. -/
theorem witness_AcknowledgementsTaken :
    (let s := asked issuedNine 8 (bytesOf 4 9)
     s.canExecute { tag := 7, kind := 8, args := bytesOf 4 (9#32).toNat } = true ∧
     s.tku.serials = some { issued := 9, acked := 5 } ∧ 9 < (10#32).toNat ∧ (9#32).toNat ≤ 9 ∧ (5#32).toNat ≤ 5 ∧
     5 < (9#32).toNat ∧ s.ackCovered 9 = false ∧ s.mst.storeFault = false ∧ s.ackWriting = false ∧
     s.jobQueued .ack = false) ∧
    (let s := writing issuedNine [.commit, .ack 7] [.serial 1] false none
     s.ackCovered 9 = false ∧ s.ackWriting = false ∧ s.jobQueued .ack = true) ∧
    (let s := writing issuedNine [.ack 7] [.ack 7] false none
     s.powered = true ∧ s.ackWriting = true ∧ s.ackCovered 7 = true ∧ s.mst.jobs = .ack 7 :: [] ∧
     s.mst.running.map (·.writes) = some [.ack 7] ∧ (6 ≤ 7 ∧ 7 < 9)) ∧
    (let s := writing issuedNine [.ack 7] [.ack 7] true none
     s.powered = true ∧ s.mst.jobs = .ack 7 :: [] ∧
     s.mst.running.map (fun r => (r.writes, r.again)) = some ([.ack 7], true)) := by
  decide +kernel

theorem witness_TicketsResent :
    (asked issuedNine 9 (bytesOf 4 9)).canExecute { tag := 7, kind := 9, args := bytesOf 4 (9#32).toNat } = true ∧
    9 ≤ lastSerial (.void 6 9) ∧ ¬ 10 ≤ lastSerial (.void 6 9) := by
  decide +kernel

/-- An entry one second past its 72 hours, and one at them; the end of the job that removes it; a deck at its expiry. -/
theorem witness_SweepsRun :
    (let s := { bench with
       tku := { bench.tku with sweep := some 0, pending := [{ inbound := firstPass 8, recNo := 3 }] }
       gpt := { bench.gpt with time := some 260201 } }
     s.powered = true ∧ s.tku.sweep ≠ none ∧ s.gpt.time = some 260201 ∧
     (s.setting 19).toNat * 3600 < 260201 - 1000 ∧ ¬ (s.setting 19).toNat * 3600 < 260200 - 1000 ∧
     s.jobQueued .housekeeping = false ∧ s.mst.jobs = [] ∧ s.mst.storeFault = false) ∧
    (let s := writing { bench with tku := { bench.tku with pending := [{ inbound := firstPass 8, recNo := 3 }] } }
       [.housekeeping [3]] [.pending 3 .empty] false none
     s.powered = true ∧ s.mst.jobs = .housekeeping [3] :: [] ∧
     s.mst.running.map (·.writes) = some [.pending 3 .empty] ∧ { inbound := firstPass 8, recNo := 3 } ∈ s.tku.pending ∧
     after (exec (.recordWriteDone .equal) s) (fun t => t.tku.pending == [] &&
       t.gpt.notices == [{ time := none, notice := .pendingExpired (firstPass 8) }]) = true) ∧
    (let s := { bench with
       aud := { bench.aud with sweep := some 0, standings := [.verified 5000, .unverified] }
       gpt := { bench.gpt with time := some 5000 } }
     s.powered = true ∧ s.aud.sweep ≠ none ∧ s.gpt.time = some 5000 ∧
     s.aud.lapsed.length = s.aud.standings.length ∧ s.aud.standings[0]? = some (.verified 5000) ∧
     s.aud.lapsed[0]? = some false) := by
  decide +kernel

/-- A deck whose lapse is noticed already, and one that is UNVERIFIED. -/
theorem witness_SweepsRun_once :
    let s := { bench with
      aud := { bench.aud with sweep := some 0, standings := [.verified 5000, .unverified], lapsed := [true, false] }
      gpt := { bench.gpt with time := some 5001 } }
    s.powered = true ∧ s.aud.sweep ≠ none ∧ s.aud.standings[0]? = some (.verified 5000) ∧ s.aud.lapsed[0]? = some true ∧
    s.aud.standings[1]? = some .unverified ∧ (exec .verificationLapsed s matches .next _) := by
  decide +kernel

def ticketOf (k : TicketKind) (s : State) : Capture :=
  { kind := k, slot := .slot0, identity := some 5, permit := some 0, decks := [(0, 20000000)],
    check := s.computeCheck .slot0, gross := 20000000, tare := none, net := none, source := .none, warn := false,
    tolerated := false, pendingRec := some 3 }

theorem witness_TicketsIssued :
    (let s0 := held 0 .issuing (some 5)
     let s := writing s0 [.ticket (ticketOf .grossIn s0)] [.serial 1] false none
     s.powered = true ∧ s.mst.jobs = .ticket (ticketOf .grossIn s0) :: [] ∧
     s.mst.running.map (fun r => (r.writes, r.recNo)) = some ([.serial 1], some 0) ∧
     s.tku.serials = some { issued := 0, acked := 0 } ∧ (s.slot .slot0).state = .issuing ∧
     s.hasAxles .slot0 = true ∧ (ticketOf .tareOut s0).kind = .tareOut) ∧
    (let p : Permit := { identity := 5, classCode := 0, tare := none, valid := true }
     let s := { bench with slc := { bench.slc with
       permits := bench.slc.permits.set 0 p, slot0 := { freeSlot with state := .issuing } } }
     s.hasAxles .slot0 = false ∧ (s.slot .slot0).state = .issuing ∧ s.slc.permits[0]? = some p ∧
     (ticketOf .tareRefresh s).permit = some 0) := by
  decide +kernel

/-- A ticket whose slot a link reset freed, and a new vehicle holds. -/
theorem witness_TicketsIssued_orphan :
    let s := writing (held 0 .moving none) [.ticket (ticketOf .spot (held 0 .moving none))] [.serial 1] false none
    s.powered = true ∧ (s.slot .slot0).state ≠ .issuing ∧ s.tku.serials = some { issued := 0, acked := 0 } ∧
    after (exec (.recordWriteDone .equal) s) (fun t => t.slc.slot0.state == .moving && t.tku.ring.length == 1) = true := by
  decide +kernel

/-- A commit whose new set changes deck 1 alone. -/
theorem witness_CalibrationJobsComplete :
    (let s0 := { bench with cal := { bench.cal with working := { benchSet with maxes := [60000000, 50000000] } } }
     let s := writing s0 [.commit] [.counter { counter := 1, code := 0 }] false (some eventOne)
     s.powered = true ∧ s.mst.jobs = .commit :: [] ∧ s.mst.running.map (·.entry) = some (some eventOne) ∧
     changedDecks s.cal.working s.cal.active = [1] ∧
     after (exec (.recordWriteDone .equal) s) (fun t => t.decks.length == 2 && t.cal.counter == 1) = true) ∧
    (let s := writing bench [.logErase] [.serial 1] false (some eventOne)
     s.mst.jobs = .logErase :: []) ∧
    (let s := writing bench [.restore 4] [.serial 4] false (some eventOne)
     s.mst.jobs = .restore 4 :: []) := by
  decide +kernel

/-- A commit that raises N, with a stray, a last-crossing record, one cell kept and one new; one that leaves N; and a
restore under SERIAL_LOST that drops one entry and adds one. -/
theorem witness_CalibrationJobsComplete_count :
    (let p : Crossing := { tA := 0, tB := 178000, dir := .forward, duration := 178000, suspect := false, axle := none }
     let m := { benchSet with n := 3, maxes := List.replicate 3 60000000,
                              cells := benchSet.cells.set 1 (some { cellB with node := 15 }) }
     let s0 := { bench with
       cells := [{ freshCell cellA with mass := some 5, entry := .ok, window := [8010] }, freshCell cellB]
       axt := { bench.axt with line := [{ owner := .stray, deck := 0 }], last := bench.axt.last.set 0 (some p) }
       cal := { bench.cal with working := m } }
     let s := writing s0 [.commit] [.counter { counter := 1, code := 0 }] false (some eventOne)
     s.powered = true ∧ s.mst.jobs = .commit :: [] ∧ s.decks.length ≠ s.cal.working.n ∧
     after (exec (.recordWriteDone .equal) s) (fun t =>
       t.cells == [{ freshCell cellA with mass := some 5, entry := .ok }, freshCell { cellB with node := 15 }] &&
       t.axt.line == [] && t.axt.last[0] == none && t.slc.claims == [.none, .none, .none] &&
       t.decks.map (·.fault) == [none, none, some .uncalibrated]) = true) ∧
    (let s0 := { bench with cal := { bench.cal with working := { benchSet with maxes := [60000000, 50000000] } } }
     s0.decks.length = s0.cal.working.n) ∧
    (let s0 := { bench with tku := { bench.tku with serials := none, pending := [{ inbound := firstPass 8, recNo := 4 }] } }
     let s1 := writing s0 [.restore 4] [.serial 4] false (some eventOne)
     let back := s1.mst.store.pending.set 3 (recOf pendingBytes (.entry (firstPass 2)))
     let s := { s1 with mst := { s1.mst with store := { s1.mst.store with pending := back } } }
     s.powered = true ∧ s.mst.jobs = .restore 4 :: [] ∧ s.tku.serials = none ∧
     after (exec (.recordWriteDone .equal) s) (fun t => t.tku.pending == [{ inbound := firstPass 2, recNo := 3 }] &&
       t.gpt.notices.map (·.notice) == [.pendingDropped 4 (some 5) (some 8), .restoreDone 1 4]) = true) := by
  refine ⟨⟨?_, ?_, ?_, ?_⟩, ?_, ?_, ?_, ?_, ?_⟩ <;> decide +kernel

theorem witness_JobsFail :
    (let s0 := held 0 .issuing (some 5)
     let s := writing s0 [.ticket (ticketOf .grossIn s0), .commit, .ack 3] [.pending 47 .empty, .serial 1] true none
     s.powered = true ∧ s.mst.jobs = .ticket (ticketOf .grossIn s0) :: [.commit, .ack 3] ∧
     s.mst.running.map (fun r => (r.writes, r.again)) = some ([.pending 47 .empty, .serial 1], true) ∧ .commit ∈ s.mst.jobs ∧
     (s.slot .slot0).state = .issuing ∧ (ticketOf .grossIn s0).slot = .slot0 ∧
     after (exec (.recordWriteDone (.differs .old)) s) (fun t =>
       t.gpt.notices == [{ time := none, notice := .storeFault (.slot .slot0) .pending (some 47) 0 }]) = true) ∧
    (let c : CloseCapture := { mode := .normal, decks := [], points := [] }
     let s := writing { bench with aud := { bench.aud with run := .closing } } [.close c] [.serial 1] true none
     s.mst.jobs = .close c :: [] ∧ s.aud.run = .closing ∧ .close c ∈ s.mst.jobs ∧
     after (exec (.recordWriteDone (.differs .old)) s) (fun t =>
       t.gpt.notices == [{ time := none, notice := .storeFault .aud .serial none 0 }]) = true) := by
  decide +kernel

theorem witness_QueuesStayBounded : bench.QueuesBounded ∧ bench.OneJobEach ∧
    ∃ t, step { bench with pending := [.requestFrame 1 99 []] } = .next t ∧ t.gpt.requests.length = 1 :=
  ⟨⟨by decide, by decide, by decide, by decide⟩, List.nodup_nil, _, rfl, by decide +kernel⟩

theorem witness_RingStaysBounded : (ready none).RingBounded ∧
    ∃ t, step { ready none with pending := [.laneKeyPrint .entry] } = .next t ∧ t.reservations = 1 :=
  ⟨by unfold State.RingBounded; decide +kernel, _, rfl, by decide +kernel⟩

theorem witness_CounterRises :
    (let s := writing bench [.logErase] [.serial 1] false (some eventOne)
     s.powered = true ∧ s.EntryNext ∧ s.mst.jobs = .logErase :: [] ∧ (Job.origin .logErase) = .cal ∧
     s.mst.running.map (fun r => (r.writes, r.entry)) = some ([.serial 1], some eventOne) ∧
     Instr.isSupply (.recordWriteDone .equal) = false) ∧
    ∃ t, exec (.recordWriteDone .equal) (writing bench [.logErase] [.serial 1] false (some eventOne)) = .next t ∧
      step { writing bench [.logErase] [.serial 1] false (some eventOne) with pending := [.recordWriteDone .equal] } = .next t := by
  refine ⟨⟨rfl, ?_, rfl, rfl, rfl, rfl⟩, _, rfl, rfl⟩
  intro r e h he
  cases h; cases he; rfl

/-- AUDIT-OPEN of one deck and of both; with no set, a deck that is not there, none, one twice, a run open, and each of the
five failings. -/
theorem witness_AuditRunsOpenedAndCancelled :
    (let q := fun (s : State) (ds : List Byte) => (asked s 11 (BitVec.ofNat 8 ds.length :: ds)).canExecute
       { tag := 7, kind := 11, args := BitVec.ofNat 8 ds.length :: ds }
     q bench [1] = true ∧ q bench [0, 1] = true ∧ q State.reset [0] = true ∧ q bench [2] = true ∧ q bench [] = true ∧
       q bench [1, 1] = true) ∧
    (bench.cal.active ≠ none ∧ State.reset.cal.active = none ∧ bench.decks.length = 2 ∧ [0, 1].Nodup ∧ ¬[1, 1].Nodup ∧
      bench.aud.run = .closed ∧ bench.slc.commitMark = false ∧ bench.claimOf 0 = .none ∧ bench.claimOf 1 = .none ∧
      bench.axleCount 1 = 0 ∧ bench.strayCount 1 = 0 ∧ bench.decks[1]? = some idleDeck ∧ idleDeck.untracked = false) ∧
    ((held 1 .moving none).claimOf 1 = .slot .slot0 ∧ strayAhead.strayCount 0 = 1 ∧ strayAhead.axleCount 0 = 0 ∧
      strayAhead.claimOf 0 = .none ∧
      (let s := (held 1 .moving none).setClaim 1 .none
       s.claimOf 1 = .none ∧ s.axleCount 1 = 1) ∧
      ((bench.modDeck 1 fun k => { k with untracked := true }).decks[1]?.map (·.untracked)) = some true ∧
      { bench with slc := { bench.slc with commitMark := true } }.claimOf 1 = .none) ∧
    (let s := asked bench 14 []
     s.canExecute { tag := 7, kind := 14, args := [] } = true ∧ s.aud.run = .closed) ∧
    (let s := { asked bench 14 [] with aud := { bench.aud with run := .closing } }
     s.canExecute { tag := 7, kind := 14, args := [] } = true ∧ s.aud.run = .closing) ∧
    (let s := { asked bench 14 [] with aud := { bench.aud with run := .waiting } }
     s.canExecute { tag := 7, kind := 14, args := [] } = true ∧ s.aud.run = .waiting) := by
  decide +kernel

/-- Decks listed out of order open a run that lists the lowest first. -/
theorem witness_AuditRunsOpenedAndCancelled_order :
    after (exec (.auditOpen 7 [1, 0]) (asked bench 11 [2, 1, 0])) (fun t =>
      decide (t.aud.run = .opened) && t.aud.decks == [0, 1]) = true := by
  decide +kernel

def point (d : Nat) (m : Int) (st : PointState) : Point :=
  { deck := d, nominal := m, position := 0, state := st, indication := some m, gross := some m, error := some 0,
    mpe := some 10000, verdict := some .pass }

/-- The bench with a run on deck 1 that holds those points. -/
def auditing (run : RunState) (ps : List Point) : State :=
  { bench with
    slc := { bench.slc with claims := [.none, .audit] }
    aud := { bench.aud with run := run, decks := [1], traffic := [0], points := ps,
                            timer := if run = .waiting then some 0 else none } }

/-- The bench with a run on deck 1 that waits for a point of `m` g, and a full window of one weight on the deck. -/
def weighing (m : Int) : State :=
  let s := auditing .waiting [{ point 1 m .waiting with indication := none, gross := none, error := none, mpe := none, verdict := none }]
  s.modDeck 1 fun k => { k with filter := List.replicate 4 62300, motionWin := List.replicate 8 62300 }

/-- Nominals at 0, at Max and one past each; the last position and one past it; 15 points held and 16; a deck of the run
and one that is not; a capture, a deck that carries a stray, a reply that completes no scan, and one of another deck. -/
theorem witness_AuditPointsTaken :
    (let s := asked (auditing .opened (List.replicate 15 (point 1 0 .captured))) 12 (1 :: (bytesOf 4 0 ++ [1]))
     s.canExecute { tag := 7, kind := 12, args := 1 :: (bytesOf 4 (0#32).toNat ++ [1]) } = true ∧ s.aud.run = .opened ∧
     (1#8).toNat ∈ s.aud.decks ∧ (0#8).toNat ∉ s.aud.decks ∧ 0 ≤ (0#32).toInt ∧ (-1#32).toInt < 0 ∧
     (60000000#32).toInt ≤ s.deckMax (1#8).toNat ∧ s.deckMax (1#8).toNat < (60000001#32).toInt ∧
     (1#8).toNat ≤ (s.cellsOf (1#8).toNat).length ∧ (s.cellsOf (1#8).toNat).length < (2#8).toNat ∧
     s.aud.points.length < 16) ∧
    16 ≤ (auditing .opened (List.replicate 16 (point 1 0 .captured))).aud.points.length ∧ bench.aud.run = .closed ∧
    (ReplyAccepted (weighing 20000) 14 17 1 (freshCell cellB) ∧
      (weighing 20000).decks[1]?.map (fun k => (k.scanLost, k.fault)) = some (false, none) ∧
      (∀ p ∈ (weighing 20000).aud.points, p.state = .waiting ∧ p.deck = 1) ∧ (weighing 20000).aud.points ≠ [] ∧
      after (exec (.cellFrame 14 17 52937 200 10000 0) (weighing 20000)) (fun t => decide (t.aud.run = .opened) &&
        t.aud.points.map (fun p => (p.state, p.indication, p.verdict)) == [(.captured, some 34000, some .fail)]) = true) ∧
    (let s := { weighing 20000 with axt := { bench.axt with line := [{ owner := .stray, deck := 1 }] } }
     ReplyAccepted s 14 17 1 (freshCell cellB) ∧ s.strayCount 1 ≠ 0) ∧
    (ReplyAccepted (weighing 20000) 12 17 0 (freshCell cellA) ∧
      ∀ p ∈ (weighing 20000).aud.points, p.state = .waiting → p.deck ≠ cellA.deck) ∧
    (ReplyAccepted (twoCells none .notReplied) 14 17 1 (freshCell cellB)) ∧
    (let s := auditing .waiting [point 1 0 .waiting, point 1 0 .captured]
     s.powered = true ∧ s.aud.timer ≠ none ∧ s.aud.run = .waiting ∧ s.aud.points[0]? = some (point 1 0 .waiting)) ∧
    (let s := { auditing .opened [] with aud := { (auditing .opened []).aud with timer := some 0 } }
     s.aud.timer ≠ none ∧ s.aud.run ≠ .waiting) := by
  unfold ReplyAccepted
  refine ⟨?_, ?_, ?_, ?_, ?_, ?_, ?_, ?_, ?_⟩ <;> decide +kernel

/-- The point captured by the third OK reply of a FAULTED cell, on a deck that holds a zero. -/
theorem witness_AuditPointsTaken_third :
    let c : Cell := { freshCell cellB with fault := some .node, clearing := 2 }
    let s := { weighing 20000 with cells := [freshCell cellA, c] }.modDeck 1 fun k => { k with fault := some .cell }
    ReplyAccepted s 14 17 1 c ∧ (c.fault = none ∨ 2 ≤ c.clearing) ∧
    after (exec (.cellFrame 14 17 52937 200 10000 0) s) (fun t => decide (t.aud.run = .opened)) = true := by
  unfold ReplyAccepted
  decide +kernel

/-- Nominals of 0, 500e, one past it, 2000e and one past it; a waiting point; an UNSTABLE point; two cell positions. -/
theorem witness_AuditArithmetic :
    ((0 : Int) ≤ 0 ∧ (0 : Int) < 20000 ∧ (10000000 : Int) ≤ 500 * 20000 ∧ (500 * 20000 : Int) < 10000001 ∧
      (40000000 : Int) ≤ 2000 * 20000 ∧ (2000 * 20000 : Int) < 40000001) ∧
    (point 1 0 .waiting).state = .waiting ∧ ((point 1 0 .waiting).expire 20000).verdict = some .unstable ∧
    (let ps := [{ point 1 10000000 .captured with position := 1, indication := some 10004000 },
                { point 1 10000000 .captured with position := 2, indication := some 9993999 }]
     eccentricity 20000 ps = .fail ∧ eccentricity 20002 ps = .pass ∧ eccentricity 20000 (ps.take 1) = .none) := by
  decide +kernel

/-- AUDIT-CLOSE of one captured point; and the state each refusal of its table asks for. -/
theorem witness_AuditsClosed :
    (let s := asked { auditing .opened [point 1 0 .captured] with gpt := { bench.gpt with time := some 1000 } } 13 []
     s.canExecute { tag := 7, kind := 13, args := [] } = true ∧ s.aud.run = .opened ∧ s.mst.storeFault = false ∧
     s.tku.serials = some { issued := 0, acked := 0 } ∧ 0 < max32 ∧ s.jobQueued .aud = false ∧ s.aud.points ≠ [] ∧
     s.gpt.time ≠ none ∧ 0 < s.ringFree ∧ (withRing s 55).ringFree = (withRing s 55).ringLow + 1 ∧
     (withRing s 64).ringFree = 0 ∧ (withRing s 64).canExecute { tag := 7, kind := 13, args := [] } = true) ∧
    (let q : Request := { tag := 7, kind := 13, args := [] }
     let s := asked (auditing .opened []) 13 []
     s.canExecute q = true ∧ s.aud.points = [] ∧ s.gpt.time = none ∧ (asked bench 13 []).canExecute q = true ∧
     (asked (auditing .waiting []) 13 []).canExecute q = true ∧ (asked (auditing .waiting []) 13 []).aud.run = .waiting ∧
     { s with mst := { s.mst with storeFault := true } }.canExecute q = true ∧
     { s with tku := { s.tku with serials := none } }.canExecute q = true ∧
     { s with tku := { s.tku with serials := some { issued := max32, acked := 0 } } }.canExecute q = true ∧
     (let c : CloseCapture := { mode := .normal, decks := [], points := [] }
      (writing s [.close c] [.serial 1] false none).canExecute q = true ∧
      (writing s [.close c] [.serial 1] false none).jobQueued .aud = true)) ∧
    (let c : CloseCapture := { mode := .normal, decks := [{ deck := 1, verdict := .pass, reasons := [], ecc := .none, traffic := 0 }],
                               points := [] }
     let s := writing (auditing .closing []) [.close c] [.serial 1] false none
     s.powered = true ∧ s.mst.jobs = .close c :: [] ∧ s.mst.running.map (·.writes) = some [.serial 1] ∧
     s.tku.serials = some { issued := 0, acked := 0 } ∧ (c.decks.map (·.deck)).Nodup ∧
     1 < s.aud.standings.length ∧ s.aud.run = .closing) := by
  decide +kernel

/-- The bench in CAL mode. -/
def adjusting (s : State) : State := { s with cal := { s.cal with mode := .cal } }

def metroBridge : List Byte := bytesOf 4 6 ++ bytesOf 4 50000 ++ bytesOf 4 730

/-- The bridge entry at the ends of its ranges, a deck's Max at its ends, an emptied cell and a cell; a deck whose cell
has a full window; a captured point. -/
theorem witness_WorkingSetEdited :
    (let s := asked (adjusting bench) 1 (3 :: (bytesOf 2 0 ++ metroBridge))
     s.canExecute (writeRequest 7 3 0 metroBridge) = true ∧ s.cal.mode = .cal ∧ s.commitQueued = false ∧
     50000 ∈ [1000, 2000, 5000, 10000, 20000, 50000]) ∧
    (let s := asked (adjusting bench) 1 (3 :: (bytesOf 2 2 ++ bytesOf 4 100000000))
     s.canExecute (writeRequest 7 3 2 (bytesOf 4 100000000)) = true ∧ (2#16).toNat ≤ s.cal.working.n) ∧
    (let s := asked (adjusting bench) 1 (3 :: (bytesOf 2 7 ++ [0]))
     s.canExecute (writeRequest 7 3 7 [0]) = true) ∧
    (let s := asked (adjusting bench) 1 (3 :: (bytesOf 2 38 ++ cellEntryBytes (some { cellB with node := 15 })))
     s.canExecute (writeRequest 7 3 38 (cellEntryBytes (some { cellB with node := 15 }))) = true ∧
     ({ cellB with node := 15 } : CellConst).inRange = true ∧ s.cal.working.nodeTaken 31 15 = false) ∧
    (let s := asked { adjusting (auditing .opened [point 1 20000000 .captured]) with
         cells := [freshCell cellA, { freshCell cellB with window := [12402, 12398, 12405, 12399] }] } 15 [1]
     s.canExecute { tag := 7, kind := 15, args := [1] } = true ∧ s.cal.active = some benchSet ∧
     reasonsWhere (s.runReasons 1 ++ s.zeroReasons 1) = [] ∧ ((s.cellsOf 1).map (·.const.node)).Nodup ∧
     s.aud.run ≠ .closed ∧ s.aud.points[0]? = some (point 1 20000000 .captured) ∧
     reasonsWhere (s.runReasons 1 ++ pointReasons (point 1 20000000 .captured)) = [] ∧
     (∀ c ∈ s.cellsOf 1, 1 ≤ roundDiv ((c.const.span : Int) * 20000000) 20000000 ∧
       roundDiv ((c.const.span : Int) * 20000000) 20000000 ≤ 16777215)) := by
  decide +kernel

/-- The status of the newest answer. -/
def lastStatus (o : Host.Outcome State Fault Refusal) : Option Status :=
  match o with
  | .next t => t.gpt.responses.getLast?.map (·.status)
  | _ => none

theorem setSound_of (m : MetroSet) (h : (1 ≤ m.n ∧ m.n ≤ 6 ∧ m.maxes.length = m.n) ∧ (m.cellList.map (·.node)).Nodup ∧
    ∀ c ∈ m.cellList, 1 ≤ c.node ∧ c.node ≤ 63 ∧ c.breaks.length ≤ 4) : SetSound m :=
  ⟨⟨h.1.1, h.1.2.1⟩, h.1.2.2, h.2.1, h.2.2⟩

/-- One state in the front of each line of R151 and of R154, in their order; sets within R149's counts. -/
theorem witness_WorkingSetEdited_refused :
    (let w := fun (s : State) (i : BitVec 16) (bs : List Byte) =>
       lastStatus (exec (.writeEntryMetro 7 i bs) (asked s 1 (3 :: (bytesOf 2 i.toNat ++ bs))))
     let busy := fun (s : State) => { adjusting s with mst := { s.mst with jobs := [.commit] } }
     let max := bytesOf 4 1000000
     [w bench 39 max, w bench 1 max, w (busy bench) 1 max, w (adjusting bench) 3 max,
       w (adjusting bench) 1 (bytesOf 4 999999), w (adjusting bench) 0 (bytesOf 4 7 ++ bytesOf 4 50000 ++ bytesOf 4 730),
       w (adjusting bench) 38 (cellEntryBytes (some { cellB with corner := 24577 })),
       w (adjusting bench) 38 (cellEntryBytes (some cellB))] =
     [some .badIndex, some .wrongMode, some .busy, some .badIndex, some .badValue, some .badValue, some .badValue,
       some .duplicate]) ∧
    (let z := fun (s : State) (d : Byte) => lastStatus (exec (.zeroCells 7 d) (asked s 15 [d]))
     let p := fun (s : State) (i : Byte) => lastStatus (exec (.spanFromPoint 7 i) (asked s 16 [i]))
     let run := auditing .opened [{ point 1 20000000 .captured with gross := some 0 }]
     let busy := fun (s : State) => { adjusting s with mst := { s.mst with jobs := [.commit] } }
     [z (adjusting bench) 2, z bench 1, z (busy bench) 1, z (adjusting bench) 1, p (adjusting bench) 0, p run 0,
       p (busy run) 0, p (adjusting run) 0] =
     [some .badIndex, some .wrongMode, some .busy, some .notReady, some .badIndex, some .wrongMode, some .busy,
       some .range]) ∧
    (bench.SetsSound ∧ ∃ t, step { bench with pending := [.sendScan] } = .next t) ∧
    (CellSpelled { cellB with corner := 24577 } ∧ ¬CellWithin { cellB with corner := 24577 } ∧ CellWithin cellB) :=
  ⟨by decide +kernel, by decide +kernel,
    ⟨⟨setSound_of _ (by decide +kernel), fun a h => by cases h; exact setSound_of _ (by decide +kernel),
      setSound_of _ (by decide +kernel), fun r m h => (nomatch h)⟩, _, rfl⟩,
    by unfold CellSpelled; decide, by unfold CellWithin; decide, by unfold CellWithin; decide⟩

/-- A SERIAL-RESTORE in the queue, and a value held, each covering an acknowledgement. -/
theorem witness_AcknowledgementsTaken_covered :
    (let s := asked (writing issuedNine [.restore 9] [.serial 9] false (some eventOne)) 8 (bytesOf 4 8)
     s.canExecute { tag := 7, kind := 8, args := bytesOf 4 8 } = true ∧ (∃ w, .restore w ∈ s.mst.jobs ∧ 8 ≤ w) ∧
       lastStatus (exec (.ackTickets 7 8) s) = some .ok) ∧
    (let s0 := writing issuedNine [.ack 6] [.ack 6] false none
     let s := asked { s0 with tku := { s0.tku with heldAck := some 7 } } 8 (bytesOf 4 8)
     s.mst.running ≠ none ∧ s.mst.jobs = .ack 6 :: [] ∧ (∃ w, s.tku.heldAck = some w ∧ 7 ≤ w) ∧
       after (exec (.ackTickets 7 8) s) (fun t => t.tku.heldAck == some 8 && t.mst == s.mst) = true) :=
  ⟨⟨by decide +kernel, ⟨9, by decide +kernel, by decide⟩, by decide +kernel⟩, by decide +kernel, by decide +kernel,
    ⟨7, by decide +kernel, by decide⟩, by decide +kernel⟩

theorem witness_CalibrationJobsAccepted :
    ((asked bench 17 []).canExecute { tag := 7, kind := 17, args := [] } = true ∧ bench.cal.mode = .normal) ∧
    (let s := { adjusting bench with cal := { (adjusting bench).cal with working := { benchSet with e := 50000 } } }
     s.cal.mode = .cal ∧ s.mst.storeFault = false ∧ s.jobQueued .cal = false ∧ s.cal.counter < max32 ∧
     s.cal.log.length < 32 ∧ sameSet s.cal.working s.cal.active = false ∧ inconsistencies s.cal.working = [] ∧
     (∀ c ∈ s.slc.claims, c = .none) ∧ s.slc.slot0.state = .free ∧ s.slc.slot1.state = .free) ∧
    ((asked bench 18 []).canExecute { tag := 7, kind := 18, args := [] } = true ∧
     ∀ x ∈ bench.cal.log, x.read = true) ∧
    ((asked bench 19 (bytesOf 4 4)).canExecute { tag := 7, kind := 19, args := bytesOf 4 (4#32).toNat } = true ∧
     bench.mst.jobs = [] ∧ bench.tku.heldAck = none ∧ recPasses serialBytes bench.mst.store.ack = true ∧
     bench.mst.store.ack.contents ≤ 4) := by
  decide +kernel

/-- One state in the front of each line of R157, R164 and R165, in their order, and sets that differ. -/
theorem witness_CalibrationJobsAccepted_refused :
    (let base := { adjusting bench with cal := { (adjusting bench).cal with working := { benchSet with e := 50000 } } }
     let queued := { base with mst := { base.mst with jobs := [.logErase] } }
     let broken := { base with mst := { base.mst with storeFault := true } }
     let worn := { base with cal := { base.cal with counter := max32 } }
     let full := { base with cal := { base.cal with log := List.replicate 32 { entry := eventOne, read := false } } }
     let bad := { base with cal := { base.cal with working := { benchSet with maxes := [24999999, 60000000], e := 50000 } } }
     let c := fun s => lastStatus (exec (.commit 7) (asked s 17 []))
     let e := fun s => lastStatus (exec (.logErase 7) (asked s 18 []))
     let r := fun s => lastStatus (exec (.serialRestore 7 4) (asked s 19 (bytesOf 4 4)))
     let served := { base with tku := { base.tku with serials := some { issued := 5, acked := 5 } } }
     [c bench, c broken, c queued, c worn, c full, c (adjusting bench), c bad,
       c { base with slc := { base.slc with claims := [.none, .audit] } }, c base] =
       [some .wrongMode, some .storeFault, some .busy, some .range, some .logFull, some .nothingToCommit, some .notReady,
        some .notIdle, some .accepted] ∧
     [e bench, e broken, e queued, e worn, e full, e base] =
       [some .wrongMode, some .storeFault, some .busy, some .range, some .notReady, some .accepted] ∧
     [r bench, r broken, r queued, r worn, r full, r served, r base] =
       [some .wrongMode, some .storeFault, some .busy, some .range, some .logFull, some .range, some .accepted]) ∧
    (SetSound benchSet ∧ differences { benchSet with e := 50000 } (some benchSet) = [.bridge 1] ∧
      changedDecks { benchSet with e := 50000 } (some benchSet) = [0, 1] ∧ sameSet benchSet (some benchSet) = true ∧
      inconsistencies { benchSet with maxes := [24999999, 60000000], e := 50000 } = [.ratio]) :=
  ⟨by decide +kernel, setSound_of _ (by decide +kernel), by decide +kernel, by decide +kernel, by decide +kernel,
    by decide +kernel⟩

/-- What a step leaves of the job being written. -/
def writesOf (t : State) : Option (List Write) := t.mst.running.map (·.writes)

/-- No job queued; a job handed to the empty queue, with the first of its writes; a row that leaves the job in hand; the
end of a job with one behind it and with none. -/
theorem witness_RecordsWrittenOrTorn_begun :
    bench.FrontWritten ∧ (writing bench [.ack 1] [.ack 1] false none).FrontWritten ∧
    (let s := asked { adjusting bench with cal := { (adjusting bench).cal with working := { benchSet with e := 50000 } } } 17 []
     s.mst.running = none ∧ after (exec (.commit 7) s) (fun t => t.mst.jobs == [.commit] &&
       (t.mst.running.bind (·.entry)).map (fun e => (e.counter, e.kind, e.items)) ==
         some (1, .commit, [{ index := 0, field := 1, old := some 20000, new := some 50000 }]) &&
       (writesOf t).map (fun ws => (ws.length, ws[2]?, ws[3]?)) ==
         some (5, some (.verif 0 .unverified), some (.verif 1 .unverified))) = true) ∧
    (let s := writing bench [.ack 1] [.ack 1] false none
     (∀ b, Instr.sendScan ≠ .recordWriteDone b) ∧
       after (exec .sendScan s) (fun t => t.mst.running == s.mst.running) = true) ∧
    (let s := writing bench [.ack 1, .housekeeping [3]] [.ack 1] false none
     s.powered = true ∧ s.mst.jobs = .ack 1 :: [.housekeeping [3]] ∧ writesOf s = some [.ack 1] ∧
       after (exec (.recordWriteDone .equal) s) (fun t => writesOf t == some [.pending 3 .empty]) = true) ∧
    after (exec (.recordWriteDone .equal) (writing bench [.ack 1] [.ack 1] false none)) (fun t => writesOf t == none) = true :=
  ⟨by unfold State.FrontWritten; decide +kernel, by unfold State.FrontWritten; decide +kernel, by decide +kernel,
    ⟨fun b h => (nomatch h), by decide +kernel⟩, by decide +kernel, by decide +kernel⟩

/-- A PRINT on an empty ticket job queue: the serial after the last issued, in the lowest free pending record. -/
theorem witness_RecordsWrittenOrTorn_serial :
    let s := { ready (some 5) with tku := { bench.tku with serials := some { issued := 9, acked := 9 } } }
    s.mst.running = none ∧ after (exec (.laneKeyPrint .entry) s) (fun t =>
      t.mst.running.map (fun r => (r.serial, r.recNo)) == some (10, some 0) &&
      writesOf t == some [.pending 0 (.entry { firstPass 10 with classCode := 11 }), .serial 10]) = true := by
  decide +kernel

theorem witness_ModeFollowsSwitch : unlit.powered = false ∧
    (asked bench 20 [0]).canExecute { tag := 7, kind := 20, args := [0] } = true ∧
    bench.powered = true ∧ Mode.cal ≠ bench.cal.switch ∧ Instr.isSupply (.switchMoved .cal) = false ∧
    (∀ tag, Instr.switchMoved .cal ≠ .reset tag 0#8) ∧ ∃ t, exec (.switchMoved .cal) bench = .next t :=
  ⟨rfl, by decide +kernel, rfl, by decide +kernel, rfl, fun _ h => (nomatch h), _, rfl⟩

theorem witness_LinkResets : (asked bench 20 [0]).canExecute { tag := 7, kind := 20, args := [0] } = true ∧
    (asked bench 20 [1]).canExecute { tag := 7, kind := 20, args := [1] } = true ∧ (1#8 : Byte) ≠ 0#8 ∧
    (asked bench 20 [0]).decks[1]? = some idleDeck ∧ idleDeck.gross = some 14500 ∧
    (let k := { idleDeck with w := some 447801 }
     k.gross = some 400001 ∧ 20 * bench.division < 400001) := by
  decide +kernel

theorem witness_TimeKept :
    (asked bench 2 (bytesOf 4 9)).canExecute { tag := 7, kind := 2, args := bytesOf 4 (9#32).toNat } = true ∧
    bench.gpt.time = none ∧ (ready none).gpt.time ≠ none ∧ bench.powered = true ∧ 4294967294 < 4294967295 := by
  decide +kernel

/-- A permit read, empty entries of the tables of pending entries, of the log and of the points, cells and decks of the
working set present and absent, and each table at its last index and one past it; an unknown kind, a malformed request, a
table that is read only and an unknown one. -/
theorem witness_RequestsAnswered :
    (let q := fun (t : Byte) (i : BitVec 16) =>
       (asked bench 0 (t :: bytesOf 2 i.toNat)).canExecute (readRequest 7 t i)
     (([0, 1, 2, 3, 4, 5, 6, 7, 8, 9, 10, 11] : List Byte).all fun t => q t 0 && q t 39) = true) ∧
    (bench.settings[46]? = some 0 ∧ bench.settings[47]? = none) ∧ (bench.cells[1]?.isSome ∧ bench.cells.length ≤ 2) ∧
    (bench.decks[1]? = some idleDeck ∧ bench.decks.length ≤ 2) ∧ 38 < (39#16).toNat ∧
    (bench.cal.working.cells[(8#16).toNat - 7]? = some (some cellB) ∧ bench.cal.working.cells[(38#16).toNat - 7]? = some none ∧
      bench.cal.working.maxes[(2#16).toNat - 1]? = some 60000000) ∧
    (bench.classes[23]? = some none ∧ (ready none).classes[0]? = some (some singleClass) ∧ 23 < (24#16).toNat) ∧
    (bench.slc.permits[31]?.isSome ∧ 31 < (32#16).toNat) ∧
    (bench.slc.bars[63]? = some 0 ∧ 63 < (64#16).toNat) ∧ ((1#16).toNat = (slotCode .slot1).toNat ∧ 2 < (3#16).toNat) ∧
    (let s := { bench with tku := { bench.tku with pending := List.replicate 48 { inbound := firstPass 8, recNo := 3 } } }
     s.tku.pending[47]? = some { inbound := firstPass 8, recNo := 3 } ∧ 47 < (48#16).toNat ∧ bench.tku.pending.length ≤ 47) ∧
    (let s := { bench with cal := { bench.cal with log := [{ entry := eventOne, read := false }] } }
     s.cal.log[0]? = some { entry := eventOne, read := false } ∧ s.cal.log.length ≤ 31 ∧ 31 < (32#16).toNat) ∧
    (let s := auditing .opened [point 1 0 .captured]
     s.aud.points[(1#16).toNat - 1]? = some (point 1 0 .captured) ∧ s.aud.points.length < (16#16).toNat ∧
     16 < (17#16).toNat) ∧
    (20 < (21#8).toNat ∧ (asked bench 21 []).canExecute { tag := 7, kind := 21, args := [] } = true) ∧
    (formOk 3 [] = false ∧ (asked bench 3 []).canExecute { tag := 7, kind := 3, args := [] } = true) ∧
    ((asked bench 1 (11 :: bytesOf 2 0)).canExecute (writeRequest 7 11 0 []) = true ∧ (11#8).toNat ∈ [1, 2, 7, 8, 9, 10, 11]) ∧
    (12 ≤ (12#8).toNat ∧ (asked bench 0 (12 :: bytesOf 2 0)).canExecute (readRequest 7 12 0) = true ∧
      (asked bench 1 (12 :: bytesOf 2 0)).canExecute (writeRequest 7 12 0 []) = true) := by
  decide +kernel

theorem bench_setsSound : bench.SetsSound :=
  ⟨setSound_of _ (by decide +kernel), fun a h => by cases h; exact setSound_of _ (by decide +kernel),
    setSound_of _ (by decide +kernel), fun r m h => (nomatch h)⟩

/-- A cell position that differs by a parameter of the working set, and one by those of a node the active set alone holds. -/
theorem witness_RequestsAnswered_differs :
    bench.SetsSound ∧
    ([7, 8].map fun i => ({ bench with cal := { bench.cal with
      working := { benchSet with cells := benchSet.cells.set 1 none } } }).entryDiffers i) = [false, true] ∧
    EntryHolds { benchSet with cells := benchSet.cells.set 1 none } (some benchSet) 8 (.cell 14 2) := by
  refine ⟨bench_setsSound, by decide +kernel, .inr ⟨by decide +kernel, _, rfl, 1, cellB, by decide +kernel, rfl, rfl⟩⟩

/-- The last threshold one past its range; the filter length; both values of the last mask and one past them; an index
beyond the last; a permit and one already held; the last word of the bar table and one past it. -/
theorem witness_TablesWritten :
    (let q := fun (i : BitVec 16) (v : Nat) =>
       (asked bench 1 (0 :: (bytesOf 2 i.toNat ++ bytesOf 4 v))).canExecute (writeRequest 7 0 i (bytesOf 4 v))
     q 34 1000001 = true ∧ q 2 9 = true ∧ q 35 1 = true ∧ q 46 0 = true ∧ q 46 2 = true ∧ q 47 0 = true ∧
     (bytesOf 4 9).length = 4 ∧ bench.notIdle = false ∧ settingRange 34 = some (-1000000, 1000000) ∧
     intOf (bytesOf 4 1000001) = 1000001 ∧ (asked (held 0 .moving none) 1 (0 :: (bytesOf 2 2 ++ bytesOf 4 9))).notIdle = true) ∧
    (let p : Permit := { identity := 5, classCode := 255, tare := some (2147483647, 4294967295), valid := true }
     (asked bench 1 (5 :: (bytesOf 2 31 ++ permitBytes p))).canExecute (writeRequest 7 5 31 (permitBytes p)) = true ∧
     p.identity ≠ 0#64 ∧ bench.permitTaken 31 p = false ∧
     { bench with slc := { bench.slc with permits := bench.slc.permits.set 0 p } }.permitTaken 31 p = true) ∧
    ((asked bench 1 (6 :: (bytesOf 2 63 ++ bytesOf 4 9))).canExecute (writeRequest 7 6 63 (bytesOf 4 (9#32).toNat)) = true ∧
      (asked bench 1 (6 :: (bytesOf 2 64 ++ bytesOf 4 9))).canExecute (writeRequest 7 6 64 (bytesOf 4 (9#32).toNat)) =
        true) := by
  decide +kernel

/-- Class contents as R199 lays them out. -/
def classForm (code : Nat) (types : List Byte) (limits : List Int) (gross : Int) (tolerance : Nat) : List Byte :=
  bytesOf 1 code ++ listBytes (fun x => [x]) types ++ listBytes (sbytesOf 4) limits ++ sbytesOf 4 gross
    ++ bytesOf 4 tolerance ++ [marksByte [true]]

/-- A class entry emptied, one misformed, one whose code another entry holds, one within its ranges, and one with a limit
and the tolerance past them; an index beyond the last, and a slot in use. -/
theorem witness_TablesWritten_classes :
    (let q := fun (s : State) (i : BitVec 16) (b : List Byte) =>
       (asked s 1 (4 :: (bytesOf 2 i.toNat ++ b))).canExecute (writeRequest 7 4 i b)
     q bench 23 [0] = true ∧ [0#8].head? = some 0#8 ∧ q bench 24 [0] = true ∧ q (held 0 .moving none) 23 [0] = true ∧
     (held 0 .moving none).notIdle = true ∧ bench.notIdle = false ∧
     q bench 23 (classForm 255 [4] [1] 1 0) = true ∧ 3 < (4#8).toNat ∧
     q (ready none) 23 (classForm 11 [0] [1] 1 0) = true ∧ (ready none).classes[0]? = some (some singleClass) ∧
     singleClass.code = 11 ∧
     q bench 23 (classForm 11 [0] [600000000] 1 100) = true ∧ [0#8] = [GroupType.single].map groupTypeCode ∧
     q bench 23 (classForm 11 [0] [-2147483648] 600000001 101) = true) ∧
    after (exec (.writeEntryClasses 7 23 (classForm 11 [0] [-2147483648] 600000001 101))
        (asked bench 1 (4 :: (bytesOf 2 23 ++ classForm 11 [0] [-2147483648] 600000001 101))))
      (fun t => t.classes[23]? == some (some { singleClass with limits := [1], grossLimit := 600000000, tolerance := 100 }) &&
        t.gpt.responses.map (·.status) == [.okClamped]) = true := by
  decide +kernel

/-- A permit past the last index, one valid without an identity, one with half a tare; the motion window shortened; and a
permit written that a POSITIONED slot points at. -/
theorem witness_TablesWritten_permits :
    (let p := fun (i : BitVec 16) (identity : Nat) (tare : Option Int) (time : Option Nat) (valid : Bool) =>
       let b := bytesOf 8 identity ++ [11] ++ optMass tare ++ opt32 time ++ [marksByte [valid]]
       lastStatus (exec (.writeEntryPermits 7 i b) (asked bench 1 (5 :: (bytesOf 2 i.toNat ++ b))))
     [p 32 5 none none true, p 31 0 none none true, p 31 5 (some 8000000) none true, p 31 5 none (some 900) false,
       p 31 0 none none false] = [some .badIndex, some .badValue, some .badValue, some .badValue, some .ok]) ∧
    after (exec (.writeEntrySettings 7 3 (bytesOf 4 4)) (asked loading 1 (0 :: (bytesOf 2 3 ++ bytesOf 4 4))))
      (fun t => t.decks.map (·.motionWin.length) == [1, 4]) = true ∧
    (let p : Permit := { identity := 5, classCode := 0, tare := none, valid := true }
     let s := asked { ready (some 5) with slc := { (ready (some 5)).slc with
       slot0 := { (ready (some 5)).slc.slot0 with permit := some 0 } } } 1 (5 :: (bytesOf 2 0 ++ permitBytes p))
     s.canExecute (writeRequest 7 5 0 (permitBytes p)) = true ∧ (s.slot .slot0).permit = some 0 ∧
     s.permitTaken 0 p = false ∧ after (exec (.writeEntryPermits 7 0 (permitBytes p)) s) (fun t =>
       t.slc.slot0.state == .positioned && t.slc.slot0.permit == some 0) = true) := by
  decide +kernel

theorem witness_FlagsAcknowledged :
    (asked bench 10 [2]).canExecute { tag := 7, kind := 10, args := [2] } = true ∧ bench.cells.length ≤ (2#8).toNat ∧
    (asked bench 10 [1]).canExecute { tag := 7, kind := 10, args := [1] } = true ∧ (1#8).toNat < bench.cells.length ∧
    (asked bench 10 [255]).canExecute { tag := 7, kind := 10, args := [255] } = true ∧
    bench.cells[1]? = some (freshCell cellB) := by
  decide +kernel

/-- An answer waiting, a record unsent, a notice, and a report due alone, with the fairness count at 7 and at 8. -/
theorem witness_GatehouseLineSends :
    (let s := { bench with gpt := { bench.gpt with responses := [anyAnswer], fairness := 7 } }
     s.powered = true ∧ s.gpt.responses = anyAnswer :: [] ∧ s.gpt.fairness < 8) ∧
    (let x : RingSlot := { record := .void 6 9, sent := false }
     let s := { bench with tku := { bench.tku with ring := [{ x with sent := true }, x] } }
     s.gpt.responses = [] ∧ s.tku.ring[1]? = some x ∧ x.sent = false) ∧
    (let n : Stamped := { time := none, notice := .zeroStale 1 }
     let s := { bench with gpt := { bench.gpt with notices := [n] } }
     s.gpt.notices = n :: [] ∧ s.tku.ring = []) ∧
    (let s := bench.modDeck 0 fun k => { k with reportMark := true }
     s.gpt.responses = [] ∧ s.tku.ring = [] ∧ s.gpt.notices = [] ∧
     s.decks[0]? = some { idleDeck with reportMark := true } ∧ 0 ≤ s.gpt.lastReported ∧ s.gpt.lastReported = 1 ∧
     s.decks.length = 2) ∧
    (let s := { bench with gpt := { bench.gpt with responses := [anyAnswer], fairness := 8 } }
     8 ≤ s.gpt.fairness) := by
  decide +kernel

/-- An answer too long for its frame is sent by its first 508 bytes, in a frame of the greatest length (R198). -/
theorem witness_GatehouseLineSends_long :
    let s := { bench with gpt := { bench.gpt with responses := [{ anyAnswer with body := List.replicate 588 1#8 }] } }
    s.gpt.fairness < 8 ∧ after (exec .sendResponse s) (fun t => t.gpt.lineOut.length == 517 &&
      t.gpt.lineOut.take 3 == [0xA5#8, 2#8, 0#8]) = true := by
  decide +kernel

/-- A WEIGH record of `n` decks and `k` groups, and an AUDIT record of `n` decks and `k` points. -/
def weighOf (n k : Nat) : RingRec :=
  let g : CheckGroup := { type := .single, axles := none, decks := none, load := none, limit := 1, ceiling := 1,
                          verdict := .pass, reason := none }
  let check := { bench.computeCheck .slot0 with groups := List.replicate k g }
  .weigh { serial := 1, time := 0, counter := 0, code := 0,
           capture := { ticketOf .spot bench with decks := List.replicate n (0, 0), check := check } }

def auditOf (n k : Nat) : RingRec :=
  let d : DeckResult := { deck := 1, verdict := .pass, reasons := [], ecc := .none, traffic := 0 }
  .audit { serial := 1, time := 0, counter := 0, code := 0, expiry := 0,
           capture := { mode := .normal, decks := List.replicate n d, points := List.replicate k (point 1 0 .captured) } }

/-- The least and the greatest WEIGH and AUDIT records, and the shortest and the longest notice (R198). -/
theorem witness_GatehouseLineSends_lengths :
    [weighOf 1 0, weighOf 6 6].map (ticketLength · + 1) = [54, 139] ∧
    [auditOf 1 1, auditOf 6 16].map (ticketLength · + 1) = [48, 383] ∧
    (∀ counter code ds, Notice.zeroStale 1 = .commitDone counter code ds → ds.length ≤ 6) ∧
    [0, 1, 2, 3, 4, 5].length ≤ 6 := by
  refine ⟨by decide +kernel, by decide +kernel, fun _ _ _ h => (nomatch h), by decide⟩

end Sys2Proof.Tests
end

/-! The linearity correction (R11). -/

namespace Sys2Proof.Proofs.Linearity
open Sys2Proof Sys2Proof.Machine

/-- Rounding leaves an exact quotient as it is (00_scope.md 5). -/
theorem roundDiv_mul_self {d : Int} (hd : 0 < d) (k : Int) : roundDiv (k * d) d = k := by
  have half : d / (2 * d) = 0 := Int.ediv_eq_zero_of_lt hd.le (by omega)
  have exact_quotient (j : Int) : (2 * (j * d) + d) / (2 * d) = j := by
    rw [show 2 * (j * d) + d = d + 2 * d * j by ring, Int.add_mul_ediv_left _ _ (by omega), half, zero_add]
  unfold roundDiv
  split
  · rw [← Int.neg_mul, exact_quotient, neg_neg]
  · exact exact_quotient k

theorem correctionFrom_within {x0 e0 m : Int} {q : Nat × Int} {rest : List (Nat × Int)} (h : m ≤ q.1) :
    correctionFrom x0 e0 (q :: rest) m = e0 + roundDiv ((q.2 - e0) * (m - x0)) (q.1 - x0) := if_pos h

theorem correctionFrom_past {x0 e0 m : Int} {q : Nat × Int} {rest : List (Nat × Int)} (h : (q.1 : Int) < m) :
    correctionFrom x0 e0 (q :: rest) m = correctionFrom q.1 q.2 rest m := if_neg (by omega)

theorem correction_of_nonpos (bs : List (Nat × Int)) {m : Int} (h : m ≤ 0) : correction bs m = 0 := if_pos h

theorem correction_of_pos (bs : List (Nat × Int)) {m : Int} (h : 0 < m) :
    correction bs m = correctionFrom (0 : Nat) 0 bs m := if_neg (by omega)

/-- In ascending breakpoints the first stands lowest. -/
theorem head_le_of_ascending {a p : Nat × Int} {l : List (Nat × Int)} {i : Nat}
    (hl : (a :: l).Pairwise fun p q => p.1 < q.1) (hp : (a :: l)[i]? = some p) : a.1 ≤ p.1 := by
  rcases List.mem_cons.mp (List.mem_of_getElem? hp) with rfl | hp
  · exact le_rfl
  · exact (List.rel_of_pairwise_cons hl hp).le

/-- A value beyond breakpoint `i` is corrected from that breakpoint, whatever stands before it. -/
theorem correctionFrom_beyond {m : Int} {p : Nat × Int} {i : Nat} {a : Nat × Int} {bs : List (Nat × Int)}
    (asc : (a :: bs).Pairwise fun p q => p.1 < q.1) (hp : (a :: bs)[i]? = some p) (hm : (p.1 : Int) < m) :
    correctionFrom a.1 a.2 bs m = correctionFrom p.1 p.2 (bs.drop i) m := by
  induction i generalizing a bs with
  | zero => cases hp; rfl
  | succ i ih =>
    cases bs with
    | nil => cases hp
    | cons b rest =>
      have asc' := asc.of_cons
      have low : b.1 ≤ p.1 := head_le_of_ascending asc' hp
      rw [correctionFrom_past (by omega), List.drop_succ_cons]
      exact ih asc' hp

section
variable {bs : List (Nat × Int)} {m : Int} (asc : ((0, 0) :: bs).Pairwise fun p q => p.1 < q.1)
include asc

/-- Beyond breakpoint `i`, the implicit one being number 0, the correction is formed from it and those that follow. -/
theorem correction_beyond {i : Nat} {p : Nat × Int} (hp : ((0, 0) :: bs)[i]? = some p) (hm : (p.1 : Int) < m) :
    correction bs m = correctionFrom p.1 p.2 (bs.drop i) m :=
  (correction_of_pos bs (by omega)).trans (correctionFrom_beyond asc hp hm)

/-- R11's third case: between two neighbouring breakpoints. -/
theorem correction_within {i : Nat} {p q : Nat × Int} (hp : ((0, 0) :: bs)[i]? = some p)
    (hq : ((0, 0) :: bs)[i + 1]? = some q) (hm : (p.1 : Int) < m) (hmq : m ≤ q.1) :
    correction bs m = p.2 + roundDiv ((q.2 - p.2) * (m - p.1)) ((q.1 : Int) - p.1) := by
  obtain ⟨hi, rfl⟩ := List.getElem?_eq_some_iff.mp (List.getElem?_cons_succ ▸ hq)
  rw [correction_beyond asc hp hm, List.drop_eq_getElem_cons hi, correctionFrom_within hmq]

/-- R11's fourth case: past the last breakpoint. -/
theorem correction_past_last {p : Nat × Int} (hp : ((0, 0) :: bs).getLast? = some p) (hm : (p.1 : Int) < m) :
    correction bs m = p.2 := by
  have hp : ((0, 0) :: bs)[bs.length]? = some p := by rwa [List.getLast?_eq_getElem?] at hp
  rw [correction_beyond asc hp hm, List.drop_length]
  rfl

/-- R11's boundary points: the interval that ends at a breakpoint gives that breakpoint's own correction, its quotient
being exact; the implicit breakpoint falls under the case of no positive value. -/
theorem correction_at {p : Nat × Int} (hp : p ∈ (0, 0) :: bs) : correction bs p.1 = p.2 := by
  obtain ⟨i, hp⟩ := List.mem_iff_getElem?.mp hp
  cases i with
  | zero => cases hp; exact correction_of_nonpos bs le_rfl
  | succ i =>
    obtain ⟨hi, hpi⟩ := List.getElem?_eq_some_iff.mp hp
    have below : (((0, 0) :: bs)[i]).1 < p.1 := hpi ▸ List.pairwise_iff_getElem.mp asc i (i + 1) _ hi i.lt_succ_self
    rw [correction_within asc (List.getElem?_eq_getElem (by omega)) hp (by omega) le_rfl,
      roundDiv_mul_self (by omega)]
    ring

end

/-- Settles O19: R11's cases, each by the breakpoint its interval starts from, and R12's use of the corrected value. -/
theorem linearityCorrection : Obligations.LinearityCorrection := by
  intro bs m pts asc
  refine ⟨?none, fun h => correction_of_nonpos bs h, fun i p q hp hq => correction_within asc hp hq,
    fun p hp => correction_past_last asc hp, fun p hp hm => hm ▸ correction_at asc hp, ?corrected⟩
  case none =>
    rintro rfl
    simp [correction, correctionFrom]
  case corrected =>
    rintro c raw rfl rfl
    rfl

end Sys2Proof.Proofs.Linearity

/-! The waiting identity (R81). -/

namespace Sys2Proof.Proofs.WaitingIdentity
open Sys2Proof Sys2Proof.Machine

/-! ### Dropping it -/

/-- The waiting identity and its lifetime timer gone, all else kept. -/
def dropWaiting (s : State) : State := { s with slc := { s.slc with waiting := none, waitingTimer := none } }

@[simp] theorem dropWaiting_waiting (s : State) : (dropWaiting s).slc.waiting = none := rfl
@[simp] theorem dropWaiting_waitingTimer (s : State) : (dropWaiting s).slc.waitingTimer = none := rfl
@[simp] theorem dropWaiting_slot (s : State) (u : SlotId) : (dropWaiting s).slot u = s.slot u := by cases u <;> rfl

/-- WAITING_IDENTITY_EXPIRY, with a lifetime running. -/
theorem waitingIdentityExpiry_running {s : State} (on : s.powered = true) (running : s.slc.waitingTimer ≠ none) :
    exec .waitingIdentityExpiry s = .next (dropWaiting s) := by
  calc exec .waitingIdentityExpiry s
    _ = .next (if s.slc.waitingTimer.isSome then dropWaiting s else s) := whenPowered_on on _
    _ = .next (dropWaiting s) := by rw [if_pos (Option.isSome_iff_ne_none.mpr running)]

/-! ### Attachment (R79) -/

/-- Slot `u` with identity `i` entered, and BARRED noticed where R79 asks for it. -/
def entered (s : State) (u : SlotId) (i : Identity) : State :=
  let permit := s.permitOf i
  let barred := permit.isNone && s.barFlag (flagNumber i)
  let s1 := s.setSlot u { s.slot u with identity := some i, permit := permit, barred := barred }
  if barred then s1.raise (.barred u i (flagNumber i)) else s1

@[simp] theorem entered_waiting (s : State) (u : SlotId) (i : Identity) :
    (entered s u i).slc.waiting = s.slc.waiting := by
  unfold entered
  dsimp only
  split <;> simp

theorem entered_identity (s : State) (u : SlotId) (i : Identity) : ((entered s u i).slot u).identity = some i := by
  unfold entered
  dsimp only
  split
  · rw [State.slot_of_slc (State.raise_slc _ _), State.setSlot_slot]
  · rw [State.setSlot_slot]

section
variable {s : State} {u : SlotId} {i : Identity} (lacks : (s.slot (otherSlot u)).identity ≠ some i)
include lacks

/-- R79 for an identity that the other slot does not hold. -/
theorem attach_eq :
    s.attach u i = if s.slc.waiting = some i then dropWaiting (entered s u i) else entered s u i :=
  calc s.attach u i
    _ = if (entered s u i).slc.waiting = some i then dropWaiting (entered s u i) else entered s u i := if_neg lacks
    _ = _ := by rw [entered_waiting]

theorem attach_identity : ((s.attach u i).slot u).identity = some i := by
  rw [attach_eq lacks]
  split <;> simp [entered_identity]

/-- An attachment of the waiting identity drops it. -/
theorem attach_drops_waiting (held : s.slc.waiting = some i) :
    (s.attach u i).slc.waiting = none ∧ (s.attach u i).slc.waitingTimer = none := by
  simp [attach_eq lacks, held]

end

/-! ### Opening (R68) -/

/-- Slot `u` on deck 0, before the waiting identity is given to it. -/
def opened (s : State) (u : SlotId) : State :=
  (s.setClaim 0 (.slot u)).setSlot u { freeSlot with state := .moving, quietTimer := some s.quietMs }

theorem opened_other (s : State) (u : SlotId) : (opened s u).slot (otherSlot u) = s.slot (otherSlot u) := by
  rw [opened, State.setSlot_other]
  cases u <;> rfl

theorem openSlot_of_none {s : State} (h : s.slc.waiting = none) (u : SlotId) : s.openSlot u = opened s u := by
  rw [State.openSlot, h, opened]

theorem openSlot_of_some {s : State} {i : Identity} (h : s.slc.waiting = some i) (u : SlotId) :
    s.openSlot u = dropWaiting ((opened s u).attach u i) := by
  rw [State.openSlot, h, dropWaiting, opened]

theorem openSlot_waiting (s : State) (u : SlotId) : (s.openSlot u).slc.waiting = none := by
  cases h : s.slc.waiting with
  | none => simp [openSlot_of_none h, opened, h]
  | some i => simp [openSlot_of_some h]

theorem openSlot_identity_of_none {s : State} (h : s.slc.waiting = none) (u : SlotId) :
    ((s.openSlot u).slot u).identity = none := by
  simp [openSlot_of_none h, opened, freeSlot]

/-- The opened slot takes the waiting identity where the other slot does not hold it. -/
theorem openSlot_takes_waiting {s : State} {i : Identity} {u : SlotId} (h : s.slc.waiting = some i)
    (lacks : (s.slot (otherSlot u)).identity ≠ some i) : ((s.openSlot u).slot u).identity = some i := by
  rw [openSlot_of_some h, dropWaiting_slot]
  exact attach_identity (by rwa [opened_other])

/-! ### A read with no slot to take it (R80) -/

theorem hear_idle {p : Port} {s : State} (idle : (s.receiver p).rx = []) (kind : Byte) (body : List Byte)
    (take : State → State) : State.hear p kind body take s = take s := if_pos idle

/-- The last case of R80: no slot takes the identity and none holds it. -/
theorem takeIdent_entry_holds {s : State} {i : Identity} (nobody : s.entrySlot = none) (given : i ≠ 0#64)
    (lacks0 : s.slc.slot0.identity ≠ some i) (lacks1 : s.slc.slot1.identity ≠ some i) :
    s.takeIdent .entry i = s.holdIdentity i := by
  rw [State.takeIdent, if_neg (by simp [given]), nobody]
  exact if_neg (not_or.mpr ⟨lacks0, lacks1⟩)

theorem identFrame_idle {s : State} (on : s.powered = true) (idle : s.fpt.inward.rx = []) (l : Lane) (i : Identity) :
    exec (.identFrame l i) s = .next (s.takeIdent l i) :=
  (whenPowered_on on _).trans (congrArg _ (hear_idle (p := .field) idle _ _ _))

/-! ### The two resets (R140, R195) -/

/-- Power-up leaves the slot controller as the load makes it. -/
theorem powerUp_slc (s : State) (m : Mode) : (s.powerUp m).slc = (s.mst.store.load m s.pending).slc :=
  foldl_keeps (·.slc) State.raise State.raise_slc _ _

theorem powerUp_drops_waiting {s : State} (off : s.powered = false) (m : Mode) :
    Ends (exec (.powerUp m) s) fun t => t.slc.waiting = none ∧ t.slc.waitingTimer = none := by
  refine ⟨s.powerUp m, ?_, ?_⟩
  · simp [exec, execPowerUp, off]
  · simp only [powerUp_slc]
    exact ⟨rfl, rfl⟩

theorem reset_drops_waiting {s : State} {tag : Byte}
    (can : s.canExecute { tag := tag, kind := 20#8, args := [0#8] } = true) :
    Ends (exec (.reset tag 0#8) s) fun t => t.slc.waiting = none ∧ t.slc.waitingTimer = none :=
  ⟨s.popRequest.linkReset.answer { tag := tag, kind := 20#8, args := [0#8] } .ok
      [modeCode s.popRequest.linkReset.cal.mode],
    execute_can can fun s => (s.linkReset, .ok, [modeCode s.linkReset.cal.mode]), rfl, rfl⟩

/-- Settles O27: each clause of R81 by the operation it speaks of. -/
theorem waitingIdentityHeld : Obligations.WaitingIdentityHeld := by
  refine ⟨fun s i => ⟨rfl, rfl, rfl⟩, ⟨rfl, by decide⟩, ?read, fun s => waitingIdentityExpiry_running, ?opening,
    fun m s off => powerUp_drops_waiting off m, fun tag s => reset_drops_waiting⟩
  case read =>
    intro s i on nobody given lacks0 lacks1 idle
    rw [identFrame_idle on idle, takeIdent_entry_holds nobody given lacks0 lacks1]
  case opening =>
    intro s u
    refine ⟨openSlot_waiting s u, fun unheld => openSlot_identity_of_none unheld u, fun i held => ⟨?timer, ?takes⟩,
      fun i held lacks => attach_drops_waiting lacks held⟩
    case timer => rw [openSlot_of_some held, dropWaiting_waitingTimer]
    case takes => exact openSlot_takes_waiting held

end Sys2Proof.Proofs.WaitingIdentity

/-! A check's class, its groups, its gross and its verdicts (R93 to R100). -/

namespace Sys2Proof.Proofs.Checks
open Sys2Proof Sys2Proof.Machine

/-! ### The class (R93) -/

/-- The search through the entries in use finds the first entry of the table that passes. -/
theorem find_class_iff (s : State) (p : ClassEntry → Bool) (e : ClassEntry) :
    (s.classes.toList.filterMap id).find? p = some e ↔ FirstClass s (fun x => p x = true) e := by
  simp only [List.find?_filterMap, Option.bind_eq_some_iff, List.find?_eq_some_iff_getElem, FirstClass,
    ← Vector.getElem?_toList, id]
  constructor
  · rintro ⟨_, ⟨he, i, hi, hie, first⟩, rfl⟩
    refine ⟨i, List.getElem?_eq_some_iff.mpr ⟨hi, hie⟩, he, fun j x hj hx => ?_⟩
    obtain ⟨_, hx⟩ := List.getElem?_eq_some_iff.mp hx
    simpa [hx] using first j hj
  · rintro ⟨i, hie, he, first⟩
    obtain ⟨hi, hie⟩ := List.getElem?_eq_some_iff.mp hie
    refine ⟨some e, ⟨he, i, hi, hie, fun j hj => ?_⟩, rfl⟩
    cases hx : s.classes.toList[j] with
    | none => rfl
    | some x => simpa using first j x hj (List.getElem?_eq_some_iff.mpr ⟨hj.trans hi, hx⟩)

theorem classByCode_iff (s : State) (code : Nat) (e : ClassEntry) :
    s.classByCode code = some e ↔ FirstClass s (fun x => x.code = code) e := by
  simp only [State.classByCode, find_class_iff, beq_iff_eq]

theorem classByPattern_iff (s : State) (p : List GroupType) (e : ClassEntry) :
    s.classByPattern p = some e ↔ FirstClass s (fun x => x.pattern = p) e := by
  simp only [State.classByPattern, find_class_iff, beq_iff_eq]

theorem permitClass_eq_iff (s : State) (u : SlotId) {code : Nat} (given : code ≠ 0) :
    s.permitClass u = code ↔ ∃ q, HasPermit s u q ∧ q.classCode = code := by
  unfold State.permitClass HasPermit
  cases (s.slot u).permit with
  | none => simp [given.symm]
  | some i => cases h : s.slc.permits[i]? <;> simp [h, given.symm]

/-- `e` is the class of slot `u` by its permit. -/
def ByPermit (s : State) (u : SlotId) (e : ClassEntry) : Prop :=
  ∃ q, HasPermit s u q ∧ q.classCode ≠ 0 ∧ FirstClass s (fun x => x.code = q.classCode) e

/-- `e` is the class of slot `u` by its pattern, its permit giving none. -/
def ByPattern (s : State) (u : SlotId) (e : ClassEntry) : Prop :=
  (∀ e', ¬ByPermit s u e') ∧ FirstClass s (fun x => x.pattern = s.pattern u) e

theorem classByPermit_iff (s : State) (u : SlotId) (e : ClassEntry) :
    (if s.permitClass u = 0 then none else s.classByCode (s.permitClass u)) = some e ↔ ByPermit s u e := by
  constructor
  · intro h
    split at h
    · cases h
    next given =>
      obtain ⟨q, hq, hc⟩ := (permitClass_eq_iff s u given).mp rfl
      exact ⟨q, hq, hc ▸ given, hc ▸ (classByCode_iff s _ e).mp h⟩
  · rintro ⟨q, hq, given, first⟩
    rw [(permitClass_eq_iff s u given).mpr ⟨q, hq, rfl⟩, if_neg given]
    exact (classByCode_iff s _ e).mpr first

/-- R93: the class by the permit stands before the class by the pattern. -/
theorem classOf_iff (s : State) (u : SlotId) (e : ClassEntry) (src : ClassSource) :
    s.classOf u = some (e, src) ↔ src = .permit ∧ ByPermit s u e ∨ src = .pattern ∧ ByPattern s u e := by
  unfold State.classOf
  split
  next c found =>
    have byPermit : ∀ e', ByPermit s u e' ↔ c = e' := fun e' => by
      rw [← classByPermit_iff, found, Option.some_inj]
    have notByPattern : ¬ByPattern s u e := fun ⟨unpermitted, _⟩ => unpermitted c ((byPermit c).mpr rfl)
    simp [byPermit, notByPattern, and_comm, eq_comm (a := src)]
  next unfound =>
    have notByPermit : ∀ e', ¬ByPermit s u e' := fun e' => by
      rw [← classByPermit_iff, unfound]
      exact (Option.some_ne_none e').symm
    simp [ByPattern, notByPermit, ← classByPattern_iff, and_comm, eq_comm (a := src)]

/-- A class found by the pattern has the pattern found. -/
theorem pattern_of_classOf_pattern {s : State} {u : SlotId} {e : ClassEntry} (h : s.classOf u = some (e, .pattern)) :
    e.pattern = s.pattern u := by
  rcases (classOf_iff s u e .pattern).mp h with ⟨⟨⟩, _⟩ | ⟨-, -, -, -, same, -⟩
  exact same

/-! ### Rounding within the range of a mass -/

theorem roundMass_within {e x : Int} (h : |roundDiv x e * e| ≤ 2147483647) : roundMass e x = roundDiv x e * e := by
  obtain ⟨low, high⟩ := abs_le.mp h
  rw [roundMass, roundTo, maxMass, if_neg (by omega), if_neg (by omega)]

/-- The greatest multiple of `e` within the range of a mass. -/
theorem greatest_multiple {e : Int} (he : 0 < e) :
    e ∣ 2147483647 / e * e ∧ 2147483647 / e * e ≤ 2147483647 ∧ 2147483647 < 2147483647 / e * e + e := by
  refine ⟨Dvd.intro_left _ rfl, Int.ediv_mul_le _ he.ne', ?_⟩
  have := Int.lt_ediv_add_one_mul_self 2147483647 he
  rwa [add_mul, one_mul] at this

section
variable {e x : Int} (he : 0 ≤ e)
include he

theorem roundMass_above (h : 2147483647 < roundDiv x e * e) :
    e ∣ roundMass e x ∧ roundMass e x ≤ 2147483647 ∧ 2147483647 < roundMass e x + e := by
  have pos : 0 < e := he.lt_of_ne (by rintro rfl; simp at h)
  rw [roundMass, roundTo, maxMass, if_pos h]
  exact greatest_multiple pos

theorem roundMass_below (h : roundDiv x e * e < -2147483647) :
    e ∣ roundMass e x ∧ -2147483647 ≤ roundMass e x ∧ roundMass e x - e < -2147483647 := by
  have pos : 0 < e := he.lt_of_ne (by rintro rfl; simp at h)
  obtain ⟨divides, low, near⟩ := greatest_multiple pos
  rw [roundMass, roundTo, maxMass, if_neg (by omega), if_pos h]
  exact ⟨divides.neg_right, by omega, by omega⟩

end

/-! ### The load of a run (R96, R97) -/

/-- The reason in place of a load. -/
def reasonOf : Except CheckReason Int → Option CheckReason
  | .ok _ => none
  | .error r => some r

theorem mem_grossReason (x : Except CheckReason Int) (r : CheckReason) : r ∈ grossReason x ↔ reasonOf x = some r := by
  cases x <;> simp [grossReason, reasonOf, eq_comm]

/-- A deck of the run has no gross. -/
def LacksGross (s : State) (run : List Nat) : Prop := ∃ d ∈ run, ∀ k, s.decks[d]? = some k → k.gross = none

/-- A deck of the run is not STABLE. -/
def Moves (s : State) (run : List Nat) : Prop := ∃ d ∈ run, ∀ k, s.decks[d]? = some k → k.motion ≠ .stable

theorem any_isNone_grossOf (s : State) (run : List Nat) :
    (run.map s.grossOf).any (·.isNone) = true ↔ LacksGross s run := by
  simp [State.grossOf, LacksGross, Option.bind_eq_none_iff]

theorem stable_eq_false_iff (s : State) (d : Nat) :
    s.stable d = false ↔ ∀ k, s.decks[d]? = some k → k.motion ≠ .stable := by
  unfold State.stable
  cases s.decks[d]? <;> simp

theorem any_not_stable (s : State) (run : List Nat) : (run.any fun d => !s.stable d) = true ↔ Moves s run := by
  simp [stable_eq_false_iff, Moves]

/-- The saturated sum of the grosses of a run. -/
def runSum (s : State) (run : List Nat) : Int :=
  saturate (run.map fun d => (s.decks[d]?.bind Deck.gross).getD 0).sum

section
variable {s : State} {run : List Nat}

theorem loadOf_lacksGross (h : LacksGross s run) : s.loadOf run = .error .noGross :=
  if_pos ((any_isNone_grossOf s run).mpr h)

theorem loadOf_moves (h : ¬LacksGross s run) (hm : Moves s run) : s.loadOf run = .error .moving :=
  (if_neg (mt (any_isNone_grossOf s run).mp h)).trans (if_pos ((any_not_stable s run).mpr hm))

theorem loadOf_weighed (h : ¬LacksGross s run) (hm : ¬Moves s run) :
    s.loadOf run = .ok (roundMass s.division (runSum s run)) := by
  have sum : (run.map s.grossOf).foldl (fun a g => a + g.getD 0) 0 =
      (run.map fun d => (s.decks[d]?.bind Deck.gross).getD 0).sum := by
    rw [List.sum_eq_foldl, List.foldl_map, List.foldl_map]
    rfl
  rw [State.loadOf, if_neg (mt (any_isNone_grossOf s run).mp h), if_neg (mt (any_not_stable s run).mp hm), sum, runSum]

end

theorem division_nonneg (s : State) : 0 ≤ s.division := Int.natCast_nonneg _

theorem loadOf_loadIs (s : State) (run : List Nat) :
    LoadIs s run (s.loadOf run).toOption (reasonOf (s.loadOf run)) := by
  refine ⟨fun h => ?noGross, fun h hm => ?moving, fun h hm => ?weighed⟩
  case noGross =>
    rw [loadOf_lacksGross h]
    exact ⟨rfl, rfl⟩
  case moving =>
    rw [loadOf_moves h hm]
    exact ⟨rfl, rfl⟩
  case weighed =>
    rw [loadOf_weighed h hm]
    exact ⟨rfl, _, rfl, roundMass_within, roundMass_above (division_nonneg s), roundMass_below (division_nonneg s)⟩

theorem vehicleGross_of_noRun {s : State} {u : SlotId} (h : s.runOf u = []) : s.vehicleGross u = .error .unclaimed :=
  if_pos (by rw [h]; rfl)

theorem vehicleGross_of_run {s : State} {u : SlotId} (h : s.runOf u ≠ []) : s.vehicleGross u = s.loadOf (s.runOf u) :=
  if_neg (by simpa using h)

/-! ### A group on its run (R94 to R96) -/

/-- The foremost axle joins the group behind it or stands as a group of its own (R61). -/
theorem groupsOf_cons (gap : Nat) (a : AxleRec × Nat) (rest : List (AxleRec × Nat)) :
    (∃ g gs, groupsOf gap rest = g :: gs ∧ groupsOf gap (a :: rest) = (a :: g) :: gs) ∨
      groupsOf gap (a :: rest) = [a] :: groupsOf gap rest := by
  simp only [groupsOf]
  cases groupsOf gap rest with
  | nil => exact .inr rfl
  | cons g gs => exact (ite_eq_or_eq _ _ _).imp_left fun joined => ⟨g, gs, rfl, joined⟩

theorem ne_nil_of_mem_groupsOf {gap : Nat} {l : List (AxleRec × Nat)} : ∀ g ∈ groupsOf gap l, g ≠ [] := by
  induction l with
  | nil => exact fun g h => nomatch h
  | cons a rest ih =>
    rcases groupsOf_cons gap a rest with ⟨g, gs, behind, joined⟩ | alone
    · rw [behind] at ih
      rw [joined]
      exact List.forall_mem_cons.mpr ⟨List.cons_ne_nil a g, (List.forall_mem_cons.mp ih).2⟩
    · rw [alone]
      exact List.forall_mem_cons.mpr ⟨List.cons_ne_nil a [], ih⟩

/-- The decks of a group's axles run from `lo` to `hi`. -/
structure Spans (g : List (AxleRec × Nat)) (lo hi : Nat) : Prop where
  lowest : ∃ a ∈ g, a.2 = lo
  highest : ∃ a ∈ g, a.2 = hi
  within : ∀ a ∈ g, lo ≤ a.2 ∧ a.2 ≤ hi

theorem Spans.le {g : List (AxleRec × Nat)} {lo hi : Nat} (h : Spans g lo hi) : lo ≤ hi := by
  obtain ⟨a, ha, rfl⟩ := h.lowest
  exact (h.within a ha).2

/-- The decks up to `hi` that are not below `lo`. -/
theorem filter_range_eq_range' {lo hi : Nat} :
    (List.range (hi + 1)).filter (lo ≤ ·) = List.range' lo (hi + 1 - lo) := by
  refine List.Perm.eq_of_pairwise (le := (· < ·)) (fun a b _ _ h h' => absurd h h'.asymm)
    (List.pairwise_lt_range.filter _) List.pairwise_lt_range' ?_
  rw [List.perm_ext_iff_of_nodup (List.nodup_range.filter _) List.nodup_range']
  intro d
  simp only [List.mem_filter, List.mem_range, decide_eq_true_eq, List.mem_range'_1]
  omega

theorem groupRun_eq {g : List (AxleRec × Nat)} (hg : g ≠ []) :
    ∃ lo hi, Spans g lo hi ∧ groupRun g = List.range' lo (hi + 1 - lo) := by
  have decks : g.map (·.2) ≠ [] := by simpa using hg
  obtain ⟨lo, hlo⟩ := Option.isSome_iff_exists.mp (List.isSome_min?_iff.mpr decks)
  obtain ⟨hi, hhi⟩ := Option.isSome_iff_exists.mp (List.isSome_max?_iff.mpr decks)
  obtain ⟨lowest, above⟩ := List.min?_eq_some_iff.mp hlo
  obtain ⟨highest, below⟩ := List.max?_eq_some_iff.mp hhi
  refine ⟨lo, hi, ⟨List.mem_map.mp lowest, List.mem_map.mp highest, fun a ha => ?_⟩, ?_⟩
  · exact ⟨above _ (List.mem_map_of_mem ha), below _ (List.mem_map_of_mem ha)⟩
  · simp only [groupRun, hlo, hhi, filter_range_eq_range']

/-- An entry on the run is not an axle of the group (R95). -/
theorem shared_iff (s : State) (u : SlotId) (g : List (AxleRec × Nat)) (run : List Nat) :
    s.shared u g run = true ↔
      ∃ x ∈ s.axt.line, x.deck ∈ run ∧ ∀ a, x.owner = .listed u a → ∀ b ∈ g, b.1.name ≠ a.name := by
  simp only [State.shared, List.any_eq_true, Bool.and_eq_true, List.contains_iff_mem]
  refine exists_congr fun x => and_congr_right fun _ => and_congr_right fun _ => ?_
  cases x.owner with
  | listed v a => by_cases h : v = u <;> simp [h]
  | overflow v => simp
  | stray => simp

theorem groupLoad_of_unclaimed {s : State} {u : SlotId} {g : List (AxleRec × Nat)}
    (h : ∃ d ∈ groupRun g, s.claimOf d ≠ .slot u) : s.groupLoad u g = .error .unclaimed :=
  if_pos (by simpa using h)

section
variable {s : State} {u : SlotId} {g : List (AxleRec × Nat)} (claimed : ¬∃ d ∈ groupRun g, s.claimOf d ≠ .slot u)
include claimed

theorem groupLoad_of_shared (h : s.shared u g (groupRun g) = true) : s.groupLoad u g = .error .sharedDeck :=
  (if_neg (by simpa using claimed)).trans (if_pos h)

theorem groupLoad_of_not_shared (h : ¬s.shared u g (groupRun g) = true) : s.groupLoad u g = s.loadOf (groupRun g) :=
  (if_neg (by simpa using claimed)).trans (if_neg h)

end

/-! ### An entry of the group list (R94, R98, R99) -/

/-- The load, the verdict and the reason of an entry come from its group's load, or from the lack of it. -/
theorem weighGroup_eq (s : State) (u : SlotId) (tol : Int) (first : Nat) (p : GroupType × Int)
    (g : List (AxleRec × Nat)) :
    s.weighGroup u tol first p g =
      { type := p.1
        axles := some (first, first + g.length - 1)
        decks := some ((groupRun g).head?.getD 0, (groupRun g).getLast?.getD 0)
        load := (s.groupLoad u g).toOption
        limit := p.2
        ceiling := ceilingOf p.2 tol
        verdict := ((s.groupLoad u g).toOption.map (judgeLoad p.2 (ceilingOf p.2 tol))).getD .indeterminate
        reason := reasonOf (s.groupLoad u g) } := by
  unfold State.weighGroup
  cases s.groupLoad u g <;> rfl

theorem decks_of_range' {lo hi : Nat} (h : lo ≤ hi) :
    ((List.range' lo (hi + 1 - lo)).head?.getD 0, (List.range' lo (hi + 1 - lo)).getLast?.getD 0) = (lo, hi) := by
  rw [List.head?_range', List.getLast?_range', if_neg (by omega), if_neg (by omega), Option.getD_some, Option.getD_some,
    show lo + (hi + 1 - lo) - 1 = hi by omega]

theorem weighGroup_groupIs (s : State) (u : SlotId) (tol : Int) (first : Nat) (p : GroupType × Int)
    {g : List (AxleRec × Nat)} (hg : g ≠ []) : GroupIs s u first g (s.weighGroup u tol first p g) := by
  obtain ⟨lo, hi, spans, run⟩ := groupRun_eq hg
  have onRun : ∀ d, d ∈ groupRun g ↔ lo ≤ d ∧ d ≤ hi := fun d => by
    have := spans.le
    rw [run, List.mem_range'_1]
    omega
  have unclaimed_iff : (∃ d ∈ groupRun g, s.claimOf d ≠ .slot u) ↔ ∃ d, lo ≤ d ∧ d ≤ hi ∧ s.claimOf d ≠ .slot u := by
    simp only [onRun, and_assoc]
  have shared_iff := shared_iff s u g (groupRun g)
  simp only [onRun, and_assoc] at shared_iff
  rw [weighGroup_eq, GroupIs, run, decks_of_range' spans.le]
  refine ⟨rfl, lo, hi, rfl, spans.lowest, spans.highest, spans.within, fun h => ?unclaimed,
    fun h hs => ?shared, fun h hs => ?weighed⟩
  case unclaimed =>
    rw [groupLoad_of_unclaimed (unclaimed_iff.mpr h)]
    exact ⟨rfl, rfl⟩
  case shared =>
    rw [groupLoad_of_shared (mt unclaimed_iff.mp h) (shared_iff.mpr hs)]
    exact ⟨rfl, rfl⟩
  case weighed =>
    rw [groupLoad_of_not_shared (mt unclaimed_iff.mp h) (mt shared_iff.mp hs), run]
    exact loadOf_loadIs s _

/-- An entry of the group list judged under tolerance `tol`, or not for a reason (R98, R99). -/
structure Judged (tol : Int) (g : CheckGroup) : Prop where
  ceiling : g.ceiling = g.limit + g.limit * tol / 1000
  weighed : ∀ x, g.load = some x → g.verdict = verdictUnder g.limit tol x
  unweighed : g.load = none → g.verdict = .indeterminate ∧ g.reason ≠ none

theorem blankGroup_judged (r : CheckReason) (tol : Int) (p : GroupType × Int) : Judged tol (blankGroup r tol p) :=
  ⟨rfl, fun _ h => (nomatch h), fun _ => ⟨rfl, Option.some_ne_none r⟩⟩

theorem weighGroup_judged (s : State) (u : SlotId) (tol : Int) (first : Nat) (p : GroupType × Int)
    (g : List (AxleRec × Nat)) : Judged tol (s.weighGroup u tol first p g) := by
  rw [weighGroup_eq]
  cases s.groupLoad u g with
  | ok load => exact ⟨rfl, fun x h => by cases h; rfl, fun h => (nomatch h)⟩
  | error r => exact ⟨rfl, fun _ h => (nomatch h), fun _ => ⟨rfl, Option.some_ne_none r⟩⟩

/-! ### The group list (R91, R94) -/

section
variable (s : State) (u : SlotId) (tol : Int)

/-- Where there is a detected group for each place, each place has its entry. -/
theorem weighGroups_places {first : Nat} {ps : List (GroupType × Int)} {gs : List (List (AxleRec × Nat))}
    (h : ps.length ≤ gs.length) : (s.weighGroups u tol first ps gs).map (fun g => (g.type, g.limit)) = ps := by
  induction ps generalizing first gs with
  | nil => cases gs <;> rfl
  | cons p ps ih =>
    cases gs with
    | nil => simp at h
    | cons g gs =>
      rw [State.weighGroups, List.map_cons, weighGroup_eq, ih (Nat.le_of_succ_le_succ h)]

/-- The entry of place `i` is laid against detected group `i`, which stands behind the axles of those before it. -/
theorem weighGroups_getElem? {first i : Nat} {ps : List (GroupType × Int)} {gs : List (List (AxleRec × Nat))}
    {g : CheckGroup} (h : (s.weighGroups u tol first ps gs)[i]? = some g) :
    ∃ p axles, gs[i]? = some axles ∧ g = s.weighGroup u tol (((gs.take i).map (·.length)).sum + first) p axles := by
  induction ps generalizing first i gs with
  | nil => cases gs <;> cases h
  | cons p ps ih =>
    cases gs with
    | nil => cases h
    | cons axles gs =>
      cases i with
      | zero =>
        cases h
        exact ⟨p, axles, rfl, by simp⟩
      | succ i =>
        obtain ⟨q, axles', hi, rfl⟩ := ih h
        refine ⟨q, axles', hi, ?_⟩
        congr 1
        simp only [List.take_succ_cons, List.map_cons, List.sum_cons]
        omega

end

section
variable {s : State} {u : SlotId} {e : ClassEntry} {src : ClassSource}

theorem groupList_of_lost (lost : (s.slot u).axleOverflow = true) :
    s.groupList u e src = (e.pattern.zip e.limits).map (blankGroup .overflow e.tolerance) := if_pos lost

theorem groupList_of_mismatch (kept : ¬(s.slot u).axleOverflow = true)
    (mismatch : src = .permit ∧ e.pattern ≠ s.pattern u) :
    s.groupList u e src = (e.pattern.zip e.limits).map (blankGroup .pattern e.tolerance) :=
  (if_neg kept).trans (if_pos mismatch)

theorem groupList_of_match (kept : ¬(s.slot u).axleOverflow = true) (same : e.pattern = s.pattern u) :
    s.groupList u e src = s.weighGroups u e.tolerance 1 (e.pattern.zip e.limits) (s.grouping u) :=
  (if_neg kept).trans (if_neg fun h => h.2 same)

/-- Where the list is lost or the permit's pattern is not the pattern found, no group is laid against a place (R94). -/
theorem groupList_of_unlaid (h : (s.slot u).axleOverflow = true ∨ src = .permit ∧ e.pattern ≠ s.pattern u) :
    s.groupList u e src = (e.pattern.zip e.limits).map
      (blankGroup (if (s.slot u).axleOverflow = true then .overflow else .pattern) e.tolerance) := by
  by_cases lost : (s.slot u).axleOverflow = true
  · rw [groupList_of_lost lost, if_pos lost]
  · rw [groupList_of_mismatch lost (h.resolve_left lost), if_neg lost]

/-- A class found has its groups laid or not laid (R94): a pattern that differs is a permit's. -/
theorem unlaid_or_match (h : s.classOf u = some (e, src)) :
    ((s.slot u).axleOverflow = true ∨ src = .permit ∧ e.pattern ≠ s.pattern u) ∨
      ¬(s.slot u).axleOverflow = true ∧ e.pattern = s.pattern u := by
  by_cases same : e.pattern = s.pattern u
  · by_cases lost : (s.slot u).axleOverflow = true
    · exact .inl (.inl lost)
    · exact .inr ⟨lost, same⟩
  · rcases (classOf_iff s u e src).mp h with ⟨rfl, -⟩ | ⟨rfl, -⟩
    · exact .inl (.inr ⟨rfl, same⟩)
    · exact absurd (pattern_of_classOf_pattern h) same

theorem groupList_places (h : s.classOf u = some (e, src)) :
    (s.groupList u e src).map (fun g => (g.type, g.limit)) = e.pattern.zip e.limits := by
  rcases unlaid_or_match h with unlaid | ⟨kept, same⟩
  · rw [groupList_of_unlaid unlaid, List.map_map]
    exact List.map_id _
  · have places : (e.pattern.zip e.limits).length ≤ (s.grouping u).length := by
      rw [List.length_zip, same, State.pattern, List.length_map]
      exact Nat.min_le_left _ _
    rw [groupList_of_match kept same, weighGroups_places s u _ places]

theorem groupList_types (h : s.classOf u = some (e, src)) (even : e.limits.length = e.pattern.length) :
    (s.groupList u e src).map (·.type) = e.pattern ∧ (s.groupList u e src).map (·.limit) = e.limits := by
  have places := groupList_places h
  constructor
  · rw [← List.map_fst_zip even.ge, ← places, List.map_map]
    rfl
  · rw [← List.map_snd_zip even.le, ← places, List.map_map]
    rfl

theorem groupList_judged (h : s.classOf u = some (e, src)) : ∀ g ∈ s.groupList u e src, Judged e.tolerance g := by
  intro g hg
  rcases unlaid_or_match h with unlaid | ⟨kept, same⟩
  · rw [groupList_of_unlaid unlaid] at hg
    obtain ⟨p, -, rfl⟩ := List.mem_map.mp hg
    exact blankGroup_judged _ _ p
  · rw [groupList_of_match kept same] at hg
    obtain ⟨i, hi⟩ := List.mem_iff_getElem?.mp hg
    obtain ⟨p, axles, -, rfl⟩ := weighGroups_getElem? s u _ hi
    exact weighGroup_judged s u _ _ p axles

theorem groupList_unlaid_blank (unlaid : (s.slot u).axleOverflow = true ∨ src = .permit ∧ e.pattern ≠ s.pattern u) :
    ∀ g ∈ s.groupList u e src, g.axles = none ∧ g.decks = none ∧ g.load = none ∧
      g.reason = some (if (s.slot u).axleOverflow = true then .overflow else .pattern) := by
  intro g hg
  rw [groupList_of_unlaid unlaid] at hg
  obtain ⟨p, -, rfl⟩ := List.mem_map.mp hg
  exact ⟨rfl, rfl, rfl, rfl⟩

theorem groupList_groupIs (kept : ¬(s.slot u).axleOverflow = true) (same : e.pattern = s.pattern u) {i : Nat}
    {g : CheckGroup} {axles : List (AxleRec × Nat)} (hg : (s.groupList u e src)[i]? = some g)
    (ha : (s.grouping u)[i]? = some axles) :
    GroupIs s u ((((s.grouping u).take i).map (·.length)).sum + 1) axles g := by
  rw [groupList_of_match kept same] at hg
  obtain ⟨p, axles', ha', rfl⟩ := weighGroups_getElem? s u _ hg
  cases ha.symm.trans ha'
  exact weighGroup_groupIs s u _ _ p (ne_nil_of_mem_groupsOf axles (List.mem_of_getElem? ha))

end

/-! ### The check's fields (R90) -/

theorem computeCheck_pattern (s : State) (u : SlotId) : (s.computeCheck u).pattern = s.pattern u := by
  unfold State.computeCheck
  dsimp only
  split <;> rfl

theorem computeCheck_gross (s : State) (u : SlotId) : (s.computeCheck u).gross = (s.vehicleGross u).toOption := by
  unfold State.computeCheck
  dsimp only
  split <;> rfl

/-- The reason set names every reason found. -/
theorem mem_reasons_iff (found : List CheckReason) (r : CheckReason) :
    r ∈ allCheckReasons.filter (found.contains ·) ↔ r ∈ found := by
  have all : r ∈ allCheckReasons := by cases r <;> decide
  simp [all]

/-- The check of a slot for which no class is found (R93, R100). -/
theorem computeCheck_of_unclassed {s : State} {u : SlotId} (h : s.classOf u = none) :
    let c := s.computeCheck u
    c.classCode = 0 ∧ c.source = .none ∧ c.hold = false ∧ c.grossVerdict = none ∧ c.grossLimit = none ∧
      c.grossCeiling = none ∧ c.groups = [] ∧ c.overall = .indeterminate := by
  simp [State.computeCheck, h]

theorem mem_reasons_of_unclassed {s : State} {u : SlotId} (h : s.classOf u = none) (r : CheckReason) :
    r ∈ (s.computeCheck u).reasons ↔
      r = .noClass ∨ r = .overflow ∧ (s.slot u).axleOverflow = true ∨ reasonOf (s.vehicleGross u) = some r := by
  simp only [State.computeCheck, h, mem_reasons_iff, List.cons_append, List.mem_cons, List.mem_append, mem_grossReason]
  split <;> simp [*]

/-- The verdict of the vehicle gross under a class (R99). -/
def grossVerdict (e : ClassEntry) (gross : Option Int) : Verdict :=
  match gross with
  | some g => verdictUnder e.grossLimit e.tolerance g
  | none => .indeterminate

section
variable {s : State} {u : SlotId} {e : ClassEntry} {src : ClassSource} (h : s.classOf u = some (e, src))
include h

theorem computeCheck_groups : (s.computeCheck u).groups = s.groupList u e src := by
  simp only [State.computeCheck, h]

theorem computeCheck_of_classed :
    let c := s.computeCheck u
    c.classCode = e.code ∧ c.source = src ∧ c.hold = e.hold ∧ c.grossLimit = some e.grossLimit ∧
      c.grossCeiling = some (e.grossLimit + e.grossLimit * e.tolerance / 1000) := by
  simp [State.computeCheck, h, ceilingOf]

theorem computeCheck_grossVerdict :
    (s.computeCheck u).grossVerdict = some (grossVerdict e (s.computeCheck u).gross) := by
  rw [computeCheck_gross]
  simp only [State.computeCheck, h]
  cases (s.vehicleGross u).toOption <;> rfl

theorem computeCheck_overall :
    (s.computeCheck u).overall = overallVerdict (s.slot u).axleOverflow
      (grossVerdict e (s.computeCheck u).gross :: (s.computeCheck u).groups.map (·.verdict)) := by
  rw [computeCheck_gross, computeCheck_groups h]
  simp only [State.computeCheck, h]
  cases (s.vehicleGross u).toOption <;> rfl

theorem mem_reasons_of_classed (r : CheckReason) :
    r ∈ (s.computeCheck u).reasons ↔
      (∃ g ∈ (s.computeCheck u).groups, g.reason = some r) ∨ reasonOf (s.vehicleGross u) = some r := by
  simp only [State.computeCheck, h, mem_reasons_iff, List.mem_append, List.mem_filterMap, mem_grossReason]

end

/-! ### The overall verdict (R100) -/

theorem overallVerdict_of_kept (vs : List Verdict) :
    (.over ∈ vs → overallVerdict false vs = .over) ∧
    (.over ∉ vs → .indeterminate ∈ vs → overallVerdict false vs = .indeterminate) ∧
    (.over ∉ vs → .indeterminate ∉ vs → .tolerated ∈ vs → overallVerdict false vs = .tolerated) ∧
    (.over ∉ vs → .indeterminate ∉ vs → .tolerated ∉ vs → overallVerdict false vs = .pass) := by
  simp +contextual [overallVerdict]

/-- Settles O35: a check with a class by the laws of its group list, R93's class and the first case of R100. -/
theorem verdictsFollowLimits : Obligations.VerdictsFollowLimits := by
  intro s u
  refine ⟨computeCheck_pattern s u, mem_runOf s u, runOf_rising s u, classOf_iff s u,
    ⟨reasonOf (s.vehicleGross u), fun unclaimed => ?noRun, fun claimed => ?run, mem_reasons_of_unclassed,
      fun classed => ?reasons⟩, computeCheck_of_unclassed, fun e src found => ?classed⟩
  case noRun =>
    rw [computeCheck_gross, vehicleGross_of_noRun unclaimed]
    exact ⟨rfl, rfl⟩
  case run =>
    rw [computeCheck_gross, vehicleGross_of_run claimed]
    exact loadOf_loadIs s _
  case reasons =>
    obtain ⟨⟨e, src⟩, found⟩ := Option.ne_none_iff_exists'.mp classed
    exact mem_reasons_of_classed found
  case classed =>
    obtain ⟨code, source, hold, limit, ceiling⟩ := computeCheck_of_classed found
    have groups := computeCheck_groups found
    have overall := computeCheck_overall found
    refine ⟨code, source, hold, limit, ceiling, computeCheck_grossVerdict found, ?places, fun even => ?types,
      fun g hg unlaid => ?blank, fun kept same i g axles hg ha => ?laid, fun g hg => ?judged, fun lost => ?lost,
      fun kept => ?kept⟩
    case places => exact groups ▸ groupList_places found
    case types => exact groups ▸ groupList_types found even
    case blank => exact groupList_unlaid_blank unlaid g (groups ▸ hg)
    case laid => exact groupList_groupIs kept same (groups ▸ hg) ha
    case judged =>
      obtain ⟨ceiling, weighed, unweighed⟩ := groupList_judged found g (groups ▸ hg)
      exact ⟨ceiling, weighed, unweighed⟩
    case lost => rw [overall, lost, overallVerdict, if_pos rfl]
    case kept =>
      rw [kept] at overall
      rw [overall]
      exact overallVerdict_of_kept _

end Sys2Proof.Proofs.Checks

/-! Acknowledgements: the answers of R125 and the end of an ACK job (R126). -/

namespace Sys2Proof.Proofs.Acknowledgements
open Sys2Proof Sys2Proof.Machine

/-! ### The store job queue (R133) -/

@[simp] theorem beginNext_jobs (s : State) : s.beginNext.mst.jobs = s.mst.jobs := by
  unfold State.beginNext
  split <;> rfl

@[simp] theorem submit_jobs (s : State) (j : Job) : (s.submit j).mst.jobs = s.mst.jobs ++ [j] :=
  beginNext_jobs _

/-! ### The end of a record write (R132, R136, R137) -/

section
variable {s : State} {r : Running} {j : Job} {js : List Job} {w : Write} {ws : List Write}
  (on : s.powered = true) (running : s.mst.running = some r) (front : s.mst.jobs = j :: js)
include on running front

theorem recordWriteDone_eq (writes : r.writes = w :: ws) (readBack : ReadBack) :
    exec (.recordWriteDone readBack) s = .next (s.writeEnds readBack j r w ws) := by
  show execRecordWriteDone readBack s = _
  rw [execRecordWriteDone, whenPowered_on on, running, front]
  simp only [writes]

/-- The last write of the front job read back equal. -/
theorem recordWriteDone_completes (writes : r.writes = [w]) :
    exec (.recordWriteDone .equal) s =
      .next (State.finish s
        (State.completeJob { s with mst := { s.mst with store := s.mst.store.lay .new w } } j r)) :=
  recordWriteDone_eq on running front writes .equal

/-- A write of the front job read back wrong for the second time. -/
theorem recordWriteDone_fails (writes : r.writes = w :: ws) (again : r.again = true) (left : Left) :
    exec (.recordWriteDone (.differs left)) s =
      .next (State.finish s
        (State.failJobs { s with mst := { s.mst with store := s.mst.store.lay left w } } j r w)) :=
  (recordWriteDone_eq on running front writes _).trans (congrArg _ (if_pos again))

end

/-! ### ACK-TICKETS (R125) -/

/-- The ACK-TICKETS request of a serial. -/
abbrev ackRequest (tag : Byte) (serial : BitVec 32) : Request :=
  { tag := tag, kind := reqAckTickets, args := bytesOf 4 serial.toNat }

@[simp] theorem popRequest_ackCovered (s : State) (v : Nat) : s.popRequest.ackCovered v = s.ackCovered v := rfl

theorem exec_ackTickets (tag : Byte) (serial : BitVec 32) (s : State) :
    exec (.ackTickets tag serial) s = execAckTickets tag serial s := rfl

section
variable {s : State} {tag : Byte} {serial : BitVec 32} {n : Serials}
  (can : s.canExecute (ackRequest tag serial) = true)
include can

theorem ackTickets_of_lost (lost : s.tku.serials = none) :
    exec (.ackTickets tag serial) s = .next (s.popRequest.answer (ackRequest tag serial) .range []) := by
  rw [exec_ackTickets, execAckTickets, execute_can can]
  simp [lost, refuse]

variable (known : s.tku.serials = some n)
include known

theorem ackTickets_of_unissued (unissued : n.issued < serial.toNat) :
    exec (.ackTickets tag serial) s = .next (s.popRequest.answer (ackRequest tag serial) .range []) := by
  rw [exec_ackTickets, execAckTickets, execute_can can]
  simp [known, unissued, refuse]

variable (issued : serial.toNat ≤ n.issued)
include issued

theorem ackTickets_of_covered (covered : serial.toNat ≤ n.acked ∨ s.ackCovered serial.toNat = true) :
    exec (.ackTickets tag serial) s = .next (s.popRequest.answer (ackRequest tag serial) .ok []) := by
  rw [exec_ackTickets, execAckTickets, execute_can can]
  simp [known, issued.not_gt, covered]

variable (uncovered : ¬(serial.toNat ≤ n.acked ∨ s.ackCovered serial.toNat = true))
include uncovered

theorem ackTickets_of_fault (fault : s.mst.storeFault = true) :
    exec (.ackTickets tag serial) s = .next (s.popRequest.answer (ackRequest tag serial) .storeFault []) := by
  rw [exec_ackTickets, execAckTickets, execute_can can]
  simp [known, issued.not_gt, uncovered, fault, refuse]

theorem ackTickets_of_sound (sound : s.mst.storeFault = false) :
    exec (.ackTickets tag serial) s =
      .next ((s.popRequest.acceptAck serial.toNat).answer (ackRequest tag serial) .accepted []) := by
  rw [exec_ackTickets, execAckTickets, execute_can can]
  simp [known, issued.not_gt, uncovered, sound]

end

/-! ### An acknowledgement accepted (R125) -/

theorem acceptAck_of_writing {s : State} (h : s.ackWriting = true) (v : Nat) :
    s.acceptAck v = { s with tku := { s.tku with heldAck := some v } } := if_pos h

theorem acceptAck_of_queued {s : State} (idle : ¬s.ackWriting = true) (queued : s.jobQueued .ack = true) (v : Nat) :
    s.acceptAck v =
      { s with mst := { s.mst with jobs := s.mst.jobs.map fun j => if j.origin = .ack then .ack v else j } } :=
  (if_neg idle).trans (if_pos queued)

theorem acceptAck_of_unqueued {s : State} (idle : ¬s.ackWriting = true) (unqueued : ¬s.jobQueued .ack = true)
    (v : Nat) : s.acceptAck v = s.submit (.ack v) :=
  (if_neg idle).trans (if_neg unqueued)

/-- Accepting an acknowledgement touches neither the port, the serials nor the ring. -/
theorem acceptAck_keeps (s : State) (v : Nat) :
    (s.acceptAck v).gpt = s.gpt ∧ (s.acceptAck v).tku.serials = s.tku.serials ∧
      (s.acceptAck v).tku.ring = s.tku.ring := by
  unfold State.acceptAck
  split
  · exact ⟨rfl, rfl, rfl⟩
  · split <;> simp

/-- The answer ACCEPTED follows what the acceptance did. -/
theorem acceptAck_replied (s : State) (v : Nat) (r : Request) :
    Replied s ((s.popRequest.acceptAck v).answer r .accepted []) r .accepted [] := by
  obtain ⟨port, -, -⟩ := acceptAck_keeps s.popRequest v
  constructor <;> simp [port]

/-! ### The ring after an acknowledgement (R126) -/

theorem lt_lastSerial_of_acked {v : Nat} {x y : RingSlot} (h : RingSlot.acked v x = some y) :
    v < lastSerial y.record := by
  obtain ⟨record, sent⟩ := x
  cases record with
  | weigh r | audit r =>
    obtain ⟨later, ⟨⟩⟩ := Option.ite_none_left_eq_some.mp h
    exact not_le.mp later
  | void a b =>
    obtain ⟨later, cut⟩ := Option.ite_none_left_eq_some.mp h
    split at cut <;> cases cut <;> exact not_le.mp later

theorem acked_of_beyond {v : Nat} {x : RingSlot} (later : v < lastSerial x.record)
    (whole : ∀ a b, x.record = .void a b → v < a) : RingSlot.acked v x = some x := by
  obtain ⟨record, sent⟩ := x
  cases record with
  | weigh r => exact if_neg (not_le.mpr later)
  | audit r => exact if_neg (not_le.mpr later)
  | void a b => exact (if_neg (not_le.mpr later)).trans (if_neg (not_le.mpr (whole a b rfl)))

/-- A VOID record that begins within the acknowledged serials now begins after them. -/
theorem acked_of_straddling {v a b : Nat} (begun : a ≤ v) (later : v < b) (m : Bool) :
    RingSlot.acked v { record := .void a b, sent := m } = some { record := .void (v + 1) b, sent := m } :=
  (if_neg (not_le.mpr later)).trans (if_pos begun)

/-! ### An ACK job completed (R126) -/

theorem submitHeld_tku (s : State) : s.submitHeld.tku = { s.tku with heldAck := none } := by
  unfold State.submitHeld
  split
  · simp
  case h_2 unheld => rw [← unheld]

theorem submitHeld_jobs (s : State) :
    s.submitHeld.mst.jobs = s.mst.jobs ++ (s.tku.heldAck.map Job.ack).toList := by
  unfold State.submitHeld
  split <;> simp [*]

theorem ackDone_tku (s : State) (v : Nat) :
    (s.ackDone v).tku = { s.tku with
      serials := s.tku.serials.map fun t => { t with acked := v }
      ring := s.tku.ring.filterMap (RingSlot.acked v)
      heldAck := none } :=
  submitHeld_tku _

theorem ackDone_jobs (s : State) (v : Nat) :
    (s.ackDone v).mst.jobs = s.mst.jobs ++ (s.tku.heldAck.map Job.ack).toList :=
  submitHeld_jobs _

/-- An ACK job holds no reservation, the one that ends no more than the one that follows it. -/
theorem reserving_of_acks (v : Nat) (js : List Job) (held : Option Nat) :
    (js ++ (held.map Job.ack).toList).filter Job.reserves = (Job.ack v :: js).filter Job.reserves := by
  cases held <;> simp [Job.reserves]

/-! ### A job failed (R137) -/

@[simp] theorem failed_mst (s : State) (j : Job) : (s.failed j).mst = s.mst :=
  (SameBut.failed s j).mst (by decide)

/-- The ticket unit keeps all but a held acknowledgement. -/
theorem failed_tku (s : State) (j : Job) :
    (s.failed j).tku = s.tku ∨ (s.failed j).tku = { s.tku with heldAck := none } := by
  cases j with
  | ticket c => exact .inl (State.slotOutcome_tku _ _ _)
  | close c =>
    refine .inl ?_
    unfold State.failed
    dsimp only
    split <;> rfl
  | commit => exact .inl rfl
  | logErase => exact .inl rfl
  | restore v => exact .inl rfl
  | ack v => exact .inr rfl
  | housekeeping ns => exact .inl rfl

@[simp] theorem failed_serials (s : State) (j : Job) : (s.failed j).tku.serials = s.tku.serials := by
  rcases failed_tku s j with h | h <;> rw [h]

@[simp] theorem failed_ring (s : State) (j : Job) : (s.failed j).tku.ring = s.tku.ring := by
  rcases failed_tku s j with h | h <;> rw [h]

theorem failed_unheld {s : State} (unheld : s.tku.heldAck = none) (j : Job) : (s.failed j).tku.heldAck = none := by
  rcases failed_tku s j with h | h <;> rw [h]
  exact unheld

section
variable (s : State) (j : Job) (r : Running) (w : Write)

theorem failJobs_serials : (s.failJobs j r w).tku.serials = s.tku.serials := by
  unfold State.failJobs
  simp [foldl_keeps (fun s => s.tku.serials) State.failed failed_serials]

theorem failJobs_ring : (s.failJobs j r w).tku.ring = s.tku.ring := by
  unfold State.failJobs
  simp [foldl_keeps (fun s => s.tku.ring) State.failed failed_ring]

theorem failJobs_storeFault : (s.failJobs j r w).mst.storeFault = true := by
  unfold State.failJobs
  simp [foldl_keeps (fun s => s.mst) State.failed failed_mst]

/-- The failure of an ACK job drops the held value, and no later failure brings one back. -/
theorem failJobs_ack_unheld (v : Nat) : (s.failJobs (.ack v) r w).tku.heldAck = none := by
  unfold State.failJobs
  refine foldl_holds (fun s => s.tku.heldAck = none) _ (fun _ j unheld => failed_unheld unheld j) _ _ ?_
  simp [State.failed]

end

/-- Settles O38: the table of R125 by the case the request falls in, and R126's two ends of the front job. -/
theorem acknowledgementsTaken : Obligations.AcknowledgementsTaken := by
  refine ⟨fun tag serial s can => ?table, fun s r v js w n on running front writes known => ?completed,
    fun s r v js w ws left on running front writes again => ?failed⟩
  case table =>
    intro r v o covered queued writing
    have covered_iff : s.ackCovered v = true ↔ covered := ackCovered_iff s v
    have queued_iff : s.popRequest.jobQueued .ack = true ↔ queued := jobQueued_ack_iff s
    have writing_iff : s.popRequest.ackWriting = true ↔ writing := ackWriting_iff s
    refine ⟨ackTickets_of_lost can, fun n known => ⟨ackTickets_of_unissued can known, fun issued done => ?covered,
      fun issued unacked uncovered => ?fresh⟩⟩
    case covered => exact ackTickets_of_covered can known issued (done.imp_right covered_iff.mpr)
    have uncovered' : ¬(v ≤ n.acked ∨ s.ackCovered v = true) :=
      not_or.mpr ⟨unacked.not_ge, mt covered_iff.mp uncovered⟩
    refine ⟨ackTickets_of_fault can known issued uncovered', fun sound => ?_⟩
    obtain ⟨-, serials, ring⟩ := acceptAck_keeps s.popRequest v
    refine ⟨_, ackTickets_of_sound can known issued uncovered' sound, acceptAck_replied s v r, serials, ring,
      fun held => ?held, fun idle inQueue => ?merged, fun idle unqueued => ?handed⟩
    case held =>
      rw [acceptAck_of_writing (writing_iff.mpr held)]
      exact ⟨rfl, rfl, rfl⟩
    case merged =>
      rw [acceptAck_of_queued (mt writing_iff.mp idle) (queued_iff.mpr inQueue)]
      exact ⟨rfl, List.map_congr_left fun j _ => by cases j <;> rfl⟩
    case handed =>
      rw [acceptAck_of_unqueued (mt writing_iff.mp idle) (mt queued_iff.mp unqueued)]
      exact ⟨State.submit_tku _ _, submit_jobs _ _⟩
  case completed =>
    refine ⟨_, recordWriteDone_completes on running front writes, ?_⟩
    simp only [State.reservations, State.finish_tku, State.finish_mst, State.completeJob, State.completed,
      State.beginNext_tku, beginNext_jobs, ackDone_tku, ackDone_jobs, known, front, List.tail_cons, Option.map_some,
      List.mem_filterMap, reserving_of_acks v, true_and, and_true]
    refine ⟨?later, fun x hx later whole => ⟨x, hx, acked_of_beyond later whole⟩,
      fun a b m hx begun later => ⟨_, hx, acked_of_straddling begun later m⟩⟩
    rintro y ⟨x, -, hy⟩
    exact lt_lastSerial_of_acked hy
  case failed =>
    refine ⟨_, recordWriteDone_fails on running front writes again left, ?_⟩
    simp only [State.finish_tku, State.finish_mst, failJobs_serials, failJobs_ring, failJobs_ack_unheld,
      failJobs_storeFault, and_self]

end Sys2Proof.Proofs.Acknowledgements

/-! The power-up load's judgement of the counter record and the set record (R141). -/

namespace Sys2Proof.Proofs.PowerUpLoad
open Sys2Proof Sys2Proof.Machine

/-! ### Power-up (R140) -/

theorem powerUp_of_dark {s : State} (dark : s.powered = false) (m : Mode) :
    exec (.powerUp m) s = .next (s.powerUp m) := by
  simp [exec, execPowerUp, dark]

/-- The notices of power-up leave all but the gatehouse port as the load made it. -/
theorem powerUp_sameBut_load (s : State) (m : Mode) :
    SameBut [.gpt] (s.mst.store.load m s.pending) (s.powerUp m) :=
  SameBut.fold [.gpt] State.raise SameBut.raise _ _

@[simp] theorem powerUp_cal (s : State) (m : Mode) :
    (s.powerUp m).cal = (s.mst.store.load m s.pending).cal :=
  (powerUp_sameBut_load s m).cal (by decide)

@[simp] theorem powerUp_cells (s : State) (m : Mode) :
    (s.powerUp m).cells = (s.mst.store.load m s.pending).cells :=
  (powerUp_sameBut_load s m).cells (by decide)

@[simp] theorem powerUp_decks (s : State) (m : Mode) :
    (s.powerUp m).decks = (s.mst.store.load m s.pending).decks :=
  (powerUp_sameBut_load s m).decks (by decide)

/-! ### Records judged by their check (R131) -/

theorem recGood_of_passes {α : Type} {layout : α → List Byte} {r : Rec α} (h : recPasses layout r = true) :
    recGood layout r = some r.contents := if_pos h

theorem recGood_of_fails {α : Type} {layout : α → List Byte} {r : Rec α} (h : recPasses layout r = false) :
    recGood layout r = none := if_neg (by simp [h])

/-- A record that passes its check holds the check word of its contents. -/
theorem word_of_passes {α : Type} {layout : α → List Byte} {r : Rec α} (h : recPasses layout r = true) :
    r.word = checkWord (layout r.contents) := beq_iff_eq.mp h

/-! ### The active set and the working set (R141) -/

theorem loadActive_eq (t : Store) :
    t.loadActive =
      if recPasses counterBytes t.counter = true ∧ recPasses setBytes t.set = true
          ∧ t.set.word = t.counter.contents.code then some t.set.contents else none := by
  unfold Store.loadActive
  cases counted : recPasses counterBytes t.counter with
  | false => simp [recGood_of_fails counted]
  | true =>
    cases set : recPasses setBytes t.set with
    | false => simp [recGood_of_fails set]
    | true => simp [recGood_of_passes counted, recGood_of_passes set]

theorem loadWorking_of_passes {t : Store} (passes : recPasses setBytes t.set = true) :
    t.loadWorking = t.set.contents := by
  rw [Store.loadWorking, recGood_of_passes passes, Option.getD_some]

/-- The active set is the set record's contents, whose check word is that record's. -/
theorem setCode_of_loadActive {t : Store} {a : MetroSet} (h : t.loadActive = some a) : setCode a = t.set.word := by
  rw [loadActive_eq, Option.ite_none_right_eq_some] at h
  obtain ⟨⟨-, passes, -⟩, ⟨⟩⟩ := h
  exact (word_of_passes passes).symm

section
variable {t : Store} (m : Mode) (pending : List Instr)

theorem load_of_uncalibrated (h : t.loadActive = none) :
    (t.load m pending).cells = [] ∧ (t.load m pending).decks = [freshDeck (some .uncalibrated)] := by
  simp [Store.load, h]

theorem load_of_active {a : MetroSet} (h : t.loadActive = some a) :
    (t.load m pending).cells = a.cellList.map freshCell ∧
      (t.load m pending).decks = (List.range a.n).map fun d => freshDeck (setFault a d) := by
  simp [Store.load, h]

end

/-! ### Log entries in counter order (R142) -/

/-- Entries by counter, none above a later one. -/
abbrev InCounterOrder (l : List (Nat × LogEntry)) : Prop := l.Pairwise fun p q => p.2.counter ≤ q.2.counter

theorem insertEntry_perm (p : Nat × LogEntry) (l : List (Nat × LogEntry)) : (insertEntry p l).Perm (p :: l) := by
  induction l with
  | nil => rfl
  | cons q rest ih =>
    rw [insertEntry]
    split
    · exact (ih.cons q).trans (.swap p q rest)
    · rfl

theorem insertEntry_inCounterOrder (p : Nat × LogEntry) {l : List (Nat × LogEntry)} (ordered : InCounterOrder l) :
    InCounterOrder (insertEntry p l) := by
  induction l with
  | nil => simp [insertEntry]
  | cons q rest ih =>
    obtain ⟨above, ordered_rest⟩ := List.pairwise_cons.mp ordered
    rw [insertEntry]
    split
    next le =>
      refine List.pairwise_cons.mpr ⟨fun x hx => ?_, ih ordered_rest⟩
      rcases List.mem_cons.mp ((insertEntry_perm p rest).mem_iff.mp hx) with rfl | hx
      · exact le
      · exact above x hx
    next lt =>
      refine List.pairwise_cons.mpr ⟨fun x hx => ?_, ordered⟩
      rcases List.mem_cons.mp hx with rfl | hx
      · omega
      · exact (not_le.mp lt).le.trans (above x hx)

theorem foldl_insertEntry_perm (es l : List (Nat × LogEntry)) :
    (es.foldl (fun l p => insertEntry p l) l).Perm (es ++ l) := by
  induction es generalizing l with
  | nil => rfl
  | cons p es ih => exact (ih _).trans (((insertEntry_perm p l).append_left es).trans List.perm_middle)

theorem loadLog_perm (t : Store) :
    t.loadLog.Perm (eraseRule (t.logEntries.filter fun p => decide (p.2.counter ≤ t.loadCounter))) := by
  simpa [Store.loadLog] using foldl_insertEntry_perm _ []

theorem loadLog_inCounterOrder (t : Store) : InCounterOrder t.loadLog :=
  List.foldlRecOn _ _ .nil fun _ ordered p _ => insertEntry_inCounterOrder p ordered

theorem max?_eq_of_perm {l l' : List Nat} (h : l.Perm l') : l.max? = l'.max? := by
  ext c
  simp only [List.max?_eq_some_iff, h.mem_iff]

/-- The last entry of a log in counter order has its greatest counter. -/
theorem InCounterOrder.max?_eq {l : List (Nat × LogEntry)} (ordered : InCounterOrder l) {p : Nat × LogEntry}
    (last : l.getLast? = some p) : (l.map (·.2.counter)).max? = some p.2.counter := by
  obtain ⟨before, rfl⟩ := List.getLast?_eq_some_iff.mp last
  obtain ⟨-, -, below⟩ := List.pairwise_append.mp ordered
  refine List.max?_eq_some_iff.mpr ⟨by simp, fun c hc => ?_⟩
  obtain ⟨q, hq, rfl⟩ := List.mem_map.mp hc
  rcases List.mem_append.mp hq with hq | hq
  · exact below q hq p (List.mem_singleton_self p)
  · rw [List.mem_singleton.mp hq]

/-- The ERASE rule leaves the greatest counter: an entry it takes out is below the newest ERASE entry, which stays. -/
theorem exists_mem_eraseRule_ge {es : List (Nat × LogEntry)} {p : Nat × LogEntry} (hp : p ∈ es) :
    ∃ q ∈ eraseRule es, p.2.counter ≤ q.2.counter := by
  unfold eraseRule
  split
  next n newest =>
    obtain ⟨e, he, rfl⟩ := List.mem_map.mp (List.max?_mem newest)
    by_cases stays : e.2.counter ≤ p.2.counter
    · exact ⟨p, by simp [hp, stays], le_rfl⟩
    · exact ⟨e, by simp [List.mem_of_mem_filter he], (not_le.mp stays).le⟩
  next => exact ⟨p, hp, le_rfl⟩

/-! ### The counter (R141) -/

theorem loadCounter_of_passes {t : Store} (passes : recPasses counterBytes t.counter = true) :
    t.loadCounter = t.counter.contents.counter := by
  rw [Store.loadCounter, recGood_of_passes passes]

section
variable {t : Store} (fails : recPasses counterBytes t.counter = false)
include fails

theorem loadCounter_of_fails :
    t.loadCounter = ((eraseRule t.logEntries).map (·.2.counter)).max?.getD 0 := by
  rw [Store.loadCounter, recGood_of_fails fails]

/-- With the counter taken from the log, no entry of the log is beyond it. -/
theorem logEntries_le_loadCounter {p : Nat × LogEntry} (hp : p ∈ t.logEntries) : p.2.counter ≤ t.loadCounter := by
  obtain ⟨q, hq, le⟩ := exists_mem_eraseRule_ge hp
  rw [loadCounter_of_fails fails]
  exact le.trans (List.le_max?_getD_of_mem (List.mem_map_of_mem hq))

theorem loadLog_perm_of_fails : t.loadLog.Perm (eraseRule t.logEntries) := by
  have all : (t.logEntries.filter fun p => decide (p.2.counter ≤ t.loadCounter)) = t.logEntries :=
    List.filter_eq_self.mpr fun p hp => decide_eq_true (logEntries_le_loadCounter fails hp)
  exact all ▸ loadLog_perm t

/-- The counter of a lost counter record is the greatest of the loaded log, zero for none. -/
theorem loadCounter_eq_max : t.loadCounter = (t.loadLog.map (·.2.counter)).max?.getD 0 := by
  rw [loadCounter_of_fails fails, max?_eq_of_perm ((loadLog_perm_of_fails fails).map _)]

theorem loadLog_le_loadCounter {p : Nat × LogEntry} (hp : p ∈ t.loadLog) : p.2.counter ≤ t.loadCounter := by
  rw [loadCounter_eq_max fails]
  exact List.le_max?_getD_of_mem (List.mem_map_of_mem hp)

theorem loadCounter_eq_last {p : Nat × LogEntry} (last : t.loadLog.getLast? = some p) :
    t.loadCounter = p.2.counter := by
  rw [loadCounter_eq_max fails, (loadLog_inCounterOrder t).max?_eq last, Option.getD_some]

theorem loadCounter_of_empty (empty : t.loadLog = []) : t.loadCounter = 0 := by
  simp [loadCounter_eq_max fails, empty]

end

/-- Settles O7: the counter by its record or else by the log's order, the active set by `loadActive_eq`, and the
blocks as the load builds them for that set. -/
theorem loadJudgesSetAndCounter : Obligations.LoadJudgesSetAndCounter := by
  intro m s dark
  refine ⟨s.powerUp m, powerUp_of_dark dark m, ?_⟩
  simp only [powerUp_cal, powerUp_cells, powerUp_decks, State.activeCode]
  refine ⟨loadCounter_of_passes, fun fails => ⟨?below, ?last, fun empty => ?none⟩, loadActive_eq _,
    fun uncalibrated => ?uncalibrated, fun a active => ?active, fun passes => ?working⟩
  case below =>
    intro x hx
    obtain ⟨p, hp, rfl⟩ := List.mem_map.mp hx
    exact loadLog_le_loadCounter fails hp
  case last =>
    intro x last
    obtain ⟨p, last_loaded, rfl⟩ := Option.map_eq_some_iff.mp (List.getLast?_map.symm.trans last)
    exact loadCounter_eq_last fails last_loaded
  case none => exact loadCounter_of_empty fails (List.map_eq_nil_iff.mp empty)
  case uncalibrated =>
    obtain ⟨cells, decks⟩ := load_of_uncalibrated m s.pending uncalibrated
    rw [cells, decks, uncalibrated]
    exact ⟨rfl, rfl, rfl⟩
  case active =>
    obtain ⟨cells, decks⟩ := load_of_active m s.pending active
    rw [cells, decks, active, Option.map_some, setCode_of_loadActive active]
    exact ⟨by simp [Function.comp_def, freshCell], by simp, rfl⟩
  case working => exact loadWorking_of_passes passes

end Sys2Proof.Proofs.PowerUpLoad

/-! The arithmetic of an audit's points: permissible error, point verdicts and eccentricity (R174, R175). -/

namespace Sys2Proof.Proofs.AuditArithmetic
open Sys2Proof Sys2Proof.Machine

/-! ### Permissible error and point verdicts (R174) -/

section
variable {e m : Int}

theorem mpeOf_of_le (h : m ≤ 500 * e) : mpeOf e m = e / 2 := if_pos h

theorem mpeOf_of_le_of_lt (above : 500 * e < m) (h : m ≤ 2000 * e) : mpeOf e m = e := by
  rw [mpeOf, if_neg above.not_ge, if_pos h]

/-- The third band lies above both edges, since no edge is below the one before it. -/
theorem mpeOf_of_lt (he : 0 < e) (above : 2000 * e < m) : mpeOf e m = 3 * e / 2 := by
  have above_first : ¬m ≤ 500 * e := by omega
  rw [mpeOf, if_neg above_first, if_neg above.not_ge]

end

theorem capture_verdict (e g : Int) (p : Point) :
    (p.capture e g).verdict =
      some (if |roundTo (e / 10) g - p.nominal| ≤ mpeOf e p.nominal then .pass else .fail) := rfl

theorem expire_verdict {p : Point} (waiting : p.state = .waiting) (e : Int) :
    (p.expire e).verdict = some .unstable := by
  rw [Point.expire, if_pos waiting]

/-! ### The reasons of a deck's FAIL (R177) -/

theorem mem_reasonsWhere {α : Type} {r : α} {table : List (α × Bool)} :
    r ∈ reasonsWhere table ↔ (r, true) ∈ table := by
  simp [reasonsWhere]

theorem point_mem_auditReasons {e : Int} {ps : List Point} :
    .point ∈ auditReasons e ps ↔ ∃ p ∈ ps, p.verdict ≠ some .pass := by
  simp [auditReasons, mem_reasonsWhere]

theorem eccentricity_mem_auditReasons {e : Int} {ps : List Point} :
    .eccentricity ∈ auditReasons e ps ↔ eccentricity e ps = .fail := by
  simp [auditReasons, mem_reasonsWhere]

/-! ### The spread of a set (R175) -/

theorem exists_spread_eq {xs : List Int} (nonempty : xs ≠ []) :
    ∃ hi ∈ xs, ∃ lo ∈ xs, spread xs = hi - lo ∧ ∀ x ∈ xs, lo ≤ x ∧ x ≤ hi := by
  obtain ⟨hi, greatest⟩ := Option.ne_none_iff_exists'.mp (mt List.max?_eq_none_iff.mp nonempty)
  obtain ⟨lo, least⟩ := Option.ne_none_iff_exists'.mp (mt List.min?_eq_none_iff.mp nonempty)
  obtain ⟨hi_mem, le_hi⟩ := List.max?_eq_some_iff.mp greatest
  obtain ⟨lo_mem, lo_le⟩ := List.min?_eq_some_iff.mp least
  exact ⟨hi, hi_mem, lo, lo_mem, by simp only [spread, greatest, least], fun x hx => ⟨lo_le x hx, le_hi x hx⟩⟩

/-- A bound is passed by the spread of a set when two of its members stand further apart. -/
theorem lt_spread_iff {xs : List Int} (nonempty : xs ≠ []) {b : Int} :
    b < spread xs ↔ ∃ x ∈ xs, ∃ y ∈ xs, b < x - y := by
  obtain ⟨hi, hi_mem, lo, lo_mem, spread_eq, within⟩ := exists_spread_eq nonempty
  rw [spread_eq]
  constructor
  · exact fun far => ⟨hi, hi_mem, lo, lo_mem, far⟩
  · rintro ⟨x, hx, y, hy, far⟩
    have x_le := (within x hx).2
    have le_y := (within y hy).1
    omega

/-! ### Eccentricity (R175) -/

section
variable {e m : Int} {ps : List Point}

theorem eccSet_eq (ps : List Point) (m : Int) :
    eccSet ps m = (ps.filter fun p => decide (p.state = .captured) && decide (p.position ≠ 0) &&
      decide (p.nominal = m)).filterMap (·.indication) := by
  simp [eccSet, bne, Bool.beq_eq_decide_eq]

/-- The eccentricity looks at the nominals of the points only, and a set of any other nominal is empty. -/
theorem mem_nominals_of_eccSet (h : eccSet ps m ≠ []) : m ∈ ps.map (·.nominal) := by
  obtain ⟨x, hx⟩ := List.exists_mem_of_ne_nil _ h
  obtain ⟨p, kept, -⟩ := List.mem_filterMap.mp hx
  obtain ⟨hp, captured_at⟩ := List.mem_filter.mp kept
  simp only [Bool.and_eq_true, beq_iff_eq] at captured_at
  exact List.mem_map.mpr ⟨p, hp, captured_at.2⟩

theorem ne_nil_of_two_le_length {xs : List Int} (h : 2 ≤ xs.length) : xs ≠ [] :=
  List.ne_nil_of_length_pos (by omega)

/-- The nominals whose sets the eccentricity compares. -/
def comparedNominals (ps : List Point) : List Int :=
  (ps.map (·.nominal)).filter fun m => decide (2 ≤ (eccSet ps m).length)

theorem mem_comparedNominals : m ∈ comparedNominals ps ↔ 2 ≤ (eccSet ps m).length := by
  rw [comparedNominals, List.mem_filter, decide_eq_true_iff, and_iff_right_iff_imp]
  exact fun two => mem_nominals_of_eccSet (ne_nil_of_two_le_length two)

theorem comparedNominals_eq_nil_iff : comparedNominals ps = [] ↔ ∀ m, (eccSet ps m).length < 2 := by
  simp only [List.eq_nil_iff_forall_not_mem, mem_comparedNominals, not_le]

theorem eccentricity_eq (e : Int) (ps : List Point) :
    eccentricity e ps = if (comparedNominals ps).isEmpty then .none
      else if (comparedNominals ps).any fun m => decide (mpeOf e m < spread (eccSet ps m)) then .fail
      else .pass := rfl

theorem eccentricity_eq_none_iff : eccentricity e ps = .none ↔ ∀ m, (eccSet ps m).length < 2 := by
  rw [← comparedNominals_eq_nil_iff, eccentricity_eq]
  split_ifs with no_set <;> simpa using no_set

theorem eccentricity_eq_fail_iff :
    eccentricity e ps = .fail ↔
      ∃ m, 2 ≤ (eccSet ps m).length ∧ ∃ x ∈ eccSet ps m, ∃ y ∈ eccSet ps m, mpeOf e m < x - y := by
  have fails_iff : eccentricity e ps = .fail ↔
      ∃ m ∈ comparedNominals ps, mpeOf e m < spread (eccSet ps m) := by
    rw [eccentricity_eq]
    split_ifs with no_set breach
    · simp [List.isEmpty_iff.mp no_set]
    · simpa using breach
    · simpa using breach
  rw [fails_iff]
  refine exists_congr fun m => ?_
  rw [mem_comparedNominals]
  exact and_congr_right fun two => lt_spread_iff (ne_nil_of_two_le_length two)

/-- PASS is what is left when some set is compared and none fails. -/
theorem eccentricity_eq_pass_iff :
    eccentricity e ps = .pass ↔ (∃ m, 2 ≤ (eccSet ps m).length) ∧
      ∀ m, 2 ≤ (eccSet ps m).length → ∀ x ∈ eccSet ps m, ∀ y ∈ eccSet ps m, x - y ≤ mpeOf e m := by
  have pass_iff : eccentricity e ps = .pass ↔ eccentricity e ps ≠ .none ∧ eccentricity e ps ≠ .fail := by
    cases eccentricity e ps <;> decide
  rw [pass_iff, Ne, eccentricity_eq_none_iff, Ne, eccentricity_eq_fail_iff]
  push Not
  rfl

end

/-- Settles O49: the bands by their edges, the point verdicts by the definitions of capture and expiry, and the
eccentricity through the sets it compares, each taken as its spread. -/
theorem auditArithmetic : Obligations.AuditArithmetic := by
  refine ⟨⟨?bands, ?captured, fun e p waiting => expire_verdict waiting e, ?unstable⟩, ?eccentricity⟩
  case bands => exact fun e m _ he => ⟨mpeOf_of_le, mpeOf_of_le_of_lt, mpeOf_of_lt he⟩
  case captured =>
    intro e g p
    refine ⟨roundTo (e / 10) g - p.nominal, rfl, rfl, ?indication, rfl, fun within => ?pass, fun beyond => ?fail⟩
    case indication => rw [sub_add_cancel]; rfl
    case pass => rw [capture_verdict, if_pos within]
    case fail => rw [capture_verdict, if_neg beyond.not_ge]
  case unstable =>
    rintro e ps ⟨p, hp, unstable⟩
    exact point_mem_auditReasons.mpr ⟨p, hp, by simp [unstable]⟩
  case eccentricity =>
    intro e ps
    simp only [← eccSet_eq]
    exact ⟨eccentricity_eq_fail_iff, eccentricity_eq_pass_iff, eccentricity_eq_none_iff,
      eccentricity_mem_auditReasons⟩

end Sys2Proof.Proofs.AuditArithmetic
